-- ==== Sys2Proof/Word.lean ====
section
/-! DEFINITION. The words, levels and names the spec uses for values (00_scope.md R13, R18; 30_encoding.md R70 to R77). -/

namespace Sys2Proof

abbrev Byte := BitVec 8
/-- Four data lines, bit `i` for line `i`: 0 = copi, 1 = cipo, 2 = wp, 3 = hold (R77). -/
abbrev Nibble := BitVec 4
/-- The word the engine returns and `dat_r` (R10: XIP_WORD_BITS = 32). -/
abbrev XipWord := BitVec 32
/-- A 24-bit byte address in the flash device (R10: FLASH_ADDR_BITS, R48). -/
abbrev FlashAddress := BitVec 24
/-- The region-relative word address of the bus port (R11: BUS_ADR_BITS = 18). -/
abbrev WordAdr := BitVec 18
/-- Format R word, 12 bits (R71). -/
abbrev RWord := BitVec 12
/-- Format B word, 53 bits (R72). -/
abbrev BWord := BitVec 53
/-- Format C word, 1 bit (R73). -/
abbrev CWord := BitVec 1

/-- A word on one of the three ports (R70). -/
inductive PortWord where
  | r (w : RWord)
  | b (w : BWord)
  | c (w : CWord)
  deriving DecidableEq, Repr

/-- A drive on a line: 0, 1 or not driven (R18). -/
inductive Drive where
  | low
  | high
  | z
  deriving DecidableEq, Repr, Inhabited

/-- The outside drives `ext[0..3]` of the four data lines (R18, names R77). -/
structure Drives where
  copi : Drive
  cipo : Drive
  wp   : Drive
  hold : Drive
  deriving DecidableEq, Repr, Inhabited

/-- The order of the four flash bytes in the 32-bit word (R12, R50). -/
inductive ByteOrder where
  | little
  | big
  deriving DecidableEq, Repr

/-- What the pending transaction does after the engine discards its read (R12, R137, R138). -/
inductive DiscardPolicy where
  | hang
  | restart
  deriving DecidableEq, Repr, Inhabited

/-- The registers a register access can name by its word offset (R71): the three of R21 and the unmapped one (R83). -/
inductive RegName where
  | rdata
  | mode
  | wdata
  | unmapped
  deriving DecidableEq, Repr

/-- What the register port carries in a tick (R71, R80). -/
inductive RegAccess where
  | idle
  | read (r : RegName)
  | write (r : RegName) (dat : Byte)
  deriving DecidableEq, Repr

/-- A request on the bus port: `stb = 1` and `cyc = 1` (R72, R81). -/
structure BusRequest where
  we   : Bool
  adr  : WordAdr
  datW : XipWord
  deriving DecidableEq, Repr

/-- What the three ports carry in one tick (R70): at most one register access, at most one bus request, the reset input. -/
structure Ports where
  reg : RegAccess
  bus : Option BusRequest
  rst : Bool
  deriving DecidableEq, Repr

/-- The outputs on the six pins (R170): chip-select (low = selected), clock, output enables and levels of the data lines. -/
structure PinOutputs where
  csN  : Bool
  clk  : Bool
  dqOe : Nibble
  dqO  : Nibble
  deriving DecidableEq, Repr, Inhabited

/-- Which of the two drivers owns the pins (R121). -/
inductive Owner where
  | bitbang
  | xip
  deriving DecidableEq, Repr

/-- The value a register read returns: `REG_DATA_BITS` bits (R55, R71). -/
structure RegValue where
  width : Nat
  bits  : BitVec width
  deriving DecidableEq, Repr

end Sys2Proof
end

