-- ==== Sys2Proof/Config.lean ====
section
/-! DEFINITION. What an implementation fixes (00_scope.md R10 to R12) and the free values (R19).  An `opaque` constant has
no value a proof can see, so whatever is proved holds for every value of it (notes/assumptions/3.md, 6.md). -/

namespace Sys2Proof

/-- `REG_OFF_RDATA`, `REG_OFF_MODE`, `REG_OFF_WDATA` (R12): the word offsets of the three registers, in the two bits of the
register port's `off` field (R71; notes/assumptions/22.md). -/
structure RegOffsets where
  rdata : BitVec 2
  mode  : BitVec 2
  wdata : BitVec 2
  deriving DecidableEq, Repr

/-- No two registers have the same offset. -/
def RegOffsets.ok (o : RegOffsets) : Bool :=
  decide (o.rdata ≠ o.mode) && decide (o.rdata ≠ o.wdata) && decide (o.mode ≠ o.wdata)

/-- The parameters of R12, arguments of the step function (notes/assumptions/3.md).  `NUM_CS = 1` (R124) and `PIN_LAYOUT`
(names only, D10) have no field. -/
structure Params where
  /-- `POWERUP_DELAY`, at least 1. -/
  powerupDelay  : Nat
  /-- `DISCARD_POLICY`. -/
  discardPolicy : DiscardPolicy
  /-- `FLASH_BASE`, a byte address on the system bus. -/
  flashBase     : Nat
  /-- `REG_BASE`, an address on the register bus. -/
  regBase       : Nat
  /-- `REG_OFF_RDATA`, `REG_OFF_MODE`, `REG_OFF_WDATA`. -/
  regOffsets    : RegOffsets
  /-- `REG_DATA_BITS`, at least 8. -/
  regDataBits   : Nat
  /-- `XIP_BYTE_ORDER`. -/
  byteOrder     : ByteOrder
  /-- `RESET_MODE_CS`. -/
  resetModeCs   : Bool
  /-- `RESET_WDATA`. -/
  resetWdata    : Byte
  deriving DecidableEq, Repr

/-- The bounds R12 puts on two parameters, and that the register offsets are three different ones. -/
def Params.ok (p : Params) : Bool :=
  decide (1 ≤ p.powerupDelay) && decide (8 ≤ p.regDataBits) && p.regOffsets.ok

namespace Config

/-- `SPI_FLASH_SIZE` = 1 MiB (R10). -/
def spiFlashSize : Nat := 0x100000

/-- The size of the flash device space: 2^24 bytes (R45). -/
def flashDeviceSize : Nat := 0x1000000

/-- `POWERUP_DELAY - 1`: OPEN (R12, D3). -/
opaque powerupDelayLessOne : Nat
/-- `DISCARD_POLICY`: OPEN, both admitted (R12, D9). -/
opaque discardPolicy : DiscardPolicy
/-- `FLASH_BASE`: OPEN (R12, D4). -/
opaque flashBase : Nat
/-- `REG_BASE`: OPEN (R12, D5). -/
opaque regBase : Nat

/-- The default register offsets 0, 1, 2 (R12, D5), the ones opcode_table.json is written with. -/
def regOffsets : RegOffsets where
  rdata := 0#2
  mode  := 1#2
  wdata := 2#2

/-- The parameters of the machine after power-on: the OPEN ones opaque, the others at the defaults of R12
(DESIGN CHOICE, notes/assumptions/4.md). -/
def params : Params where
  powerupDelay  := powerupDelayLessOne + 1
  discardPolicy := discardPolicy
  flashBase     := flashBase
  regBase       := regBase
  regOffsets    := regOffsets
  regDataBits   := 32
  byteOrder     := .little
  resetModeCs   := false
  resetWdata    := 0x00#8

/-! The free values.  The first argument is `State.draws`, a new number in every tick. -/

/-- Whether the engine's readiness falls in this tick, where no scripted input says so (R134). -/
opaque readyDraw : Nat → Bool
/-- Whether a command that software started runs in the flash chip after this tick, where no scripted input says so (R67). -/
opaque busyDraw : Nat → Bool
/-- The outside drives of a tick for which no input is scripted (R18). -/
opaque outsideDrives : Nat → Drives
/-- `any(32)`, the word of a read that ends in bit-bang mode (R140) or that the chip is not fit to answer
(R67, R232). -/
opaque anyWord : Nat → XipWord
/-- `any(32)`, `dat_r` in a tick without acknowledge (R103). -/
opaque anyDatR : Nat → XipWord
/-- `any(REG_DATA_BITS)`, a read of the unmapped offset (R83). -/
opaque anyRegValue : Nat → (width : Nat) → BitVec width
/-- `any(1)` per line, the level of a floating or contended line (R172). -/
opaque anyLines : Nat → Nibble
/-- `XipPins`, the engine's pin outputs (R171). -/
opaque xipPins : Nat → PinOutputs
/-- The non-empty opaque value of the read-ahead state (R139). -/
opaque readAhead : Nat → Nat
/-- The byte at an address of the flash device that nobody fixed, one content per era (R9, D17). -/
opaque flashByte : (era : Nat) → (address : Nat) → Byte

end Config

end Sys2Proof
end

