-- ==== Sys2Proof/Syntax.lean ====
section
/-! DEFINITION. The operations of spec/opcode_table.json, one constructor per row (30_encoding.md R79, R80, R81, R87). -/

namespace Sys2Proof

/-- An operation an outside agent applies to one of the block's ports in one tick (R87).  Bits the encoding ignores and
R79 gives no operand for (`dat` of a register read, `dat_w` of BUS_RD) are no operands here. -/
inductive Instr where
  /-- RD_RDATA: read `rdata` (R150). -/
  | rdRdata
  /-- WR_RDATA v: write `v` to `rdata`, ignored (R151). -/
  | wrRdata (dat : Byte)
  /-- RD_MODE: read `mode` (R116). -/
  | rdMode
  /-- WR_MODE v: write `v[1:0]` to `mode` (R117). -/
  | wrMode (dat : Byte)
  /-- RD_WDATA: read `wdata` (R152). -/
  | rdWdata
  /-- WR_WDATA v: write `v` to `wdata` and clock once (R153). -/
  | wrWdata (dat : Byte)
  /-- BUS_RD a: present a read request for word address `a` (R100).  `a` is a number, so that an address beyond the region
  can be written down and refused (R85). -/
  | busRd (adr : Nat)
  /-- BUS_WR a, w: present a write request for word address `a` with data `w` (R101). -/
  | busWr (adr : Nat) (datW : XipWord)
  /-- RESET: assert `rst` (R175). -/
  | reset
  /-- NOP: all three ports idle (R176). -/
  | nop
  deriving DecidableEq, Repr

end Sys2Proof
end

