-- ==== Sys2Proof/WellFormed.lean ====
section
/-! DEFINITION. Which operations can be presented: a word address lies in the region (20_memory.md R48; 30_encoding.md R85). -/

namespace Sys2Proof

/-- The number of words of the flash region: `SPI_FLASH_SIZE / BUS_WORD_BYTES` = 2^18 (R10, R11, R45). -/
def regionWords : Nat := 0x40000

/-- An operation the ports can carry: a word address is one of the region's (R85).  Every other operand fits its field by
its type. -/
def WellFormed : Instr → Bool
  | .rdRdata => true
  | .wrRdata _ => true
  | .rdMode => true
  | .wrMode _ => true
  | .rdWdata => true
  | .wrWdata _ => true
  | .busRd adr => decide (adr < regionWords)
  | .busWr adr _ => decide (adr < regionWords)
  | .reset => true
  | .nop => true

end Sys2Proof
end

