-- ==== Sys2Proof/Decode.lean ====
section
/-! DEFINITION. Port words to operations and back (30_encoding.md R70 to R73, R80 to R86; opcode_table.json). -/

namespace Sys2Proof

/-- Why a port word stands for no operation of the table. -/
inductive DecodeError where
  /-- Format R with `en = 0`: the port is idle (R80). -/
  | portIdle
  /-- Format R with `en = 1` and the offset of no register (R80, R83): 3 with the default offsets. -/
  | unmappedOffset
  /-- Format B with `stb = 0` or `cyc = 0`: no request (R81). -/
  | noRequest
  deriving DecidableEq, Repr

/-- The register a word offset selects (R71), by the parameters `REG_OFF_*` (R12). -/
def regOfOffset (o : RegOffsets) (off : BitVec 2) : RegName :=
  if off = o.rdata then .rdata
  else if off = o.mode then .mode
  else if off = o.wdata then .wdata
  else .unmapped

/-- The word offset of a register (R71).  The unmapped one is the fourth value: the four values of two bits cancel out. -/
def offsetOfReg (o : RegOffsets) : RegName → BitVec 2
  | .rdata => o.rdata
  | .mode => o.mode
  | .wdata => o.wdata
  | .unmapped => o.rdata ^^^ o.mode ^^^ o.wdata

/-- The fields of a format R word (R71): `en` = bit 11, `we` = bit 10, `off` = bits 9:8, `dat` = bits 7:0. -/
def decodeR (o : RegOffsets) (w : RWord) : RegAccess :=
  let reg := regOfOffset o (w.extractLsb' 8 2)
  if w.getLsbD 11 then
    if w.getLsbD 10 then .write reg (w.extractLsb' 0 8) else .read reg
  else .idle

/-- The fields of a format B word (R72): `stb` = bit 52, `cyc` = bit 51, `we` = bit 50, `adr` = bits 49:32, `dat_w` = bits
31:0.  A request is present when `stb = 1` and `cyc = 1`. -/
def decodeB (w : BWord) : Option BusRequest :=
  if w.getLsbD 52 && w.getLsbD 51 then
    some { we := w.getLsbD 50, adr := w.extractLsb' 32 18, datW := w.extractLsb' 0 32 }
  else none

/-- The field of a format C word (R73): `rst` = bit 0. -/
def decodeC (w : CWord) : Bool := w.getLsbD 0

/-- The operation a register access stands for (R80). -/
def instrOfAccess : RegAccess → Except DecodeError Instr
  | .idle => .error .portIdle
  | .read .rdata => .ok .rdRdata
  | .read .mode => .ok .rdMode
  | .read .wdata => .ok .rdWdata
  | .read .unmapped => .error .unmappedOffset
  | .write .rdata dat => .ok (.wrRdata dat)
  | .write .mode dat => .ok (.wrMode dat)
  | .write .wdata dat => .ok (.wrWdata dat)
  | .write .unmapped _ => .error .unmappedOffset

/-- The operation a bus request stands for (R81). -/
def instrOfRequest : Option BusRequest → Except DecodeError Instr
  | none => .error .noRequest
  | some q => .ok (if q.we then .busWr q.adr.toNat q.datW else .busRd q.adr.toNat)

/-- The operation a word on one port stands for, or why it stands for none.  A format C word with `rst = 0` is NOP when the
other two ports are idle (R81). -/
def decode (o : RegOffsets) : PortWord → Except DecodeError Instr
  | .r w => instrOfAccess (decodeR o w)
  | .b w => instrOfRequest (decodeB w)
  | .c w => .ok (if decodeC w then .reset else .nop)

/-- A format R word from its fields (R71). -/
def packR (o : RegOffsets) (we : Bool) (reg : RegName) (dat : Byte) : RWord :=
  1#1 ++ BitVec.ofBool we ++ offsetOfReg o reg ++ dat

/-- A format B word with `stb = 1` and `cyc = 1` from its other fields (R72). -/
def packB (we : Bool) (adr : WordAdr) (datW : XipWord) : BWord :=
  3#2 ++ BitVec.ofBool we ++ adr ++ datW

/-- The format B word of a request, if its word address is one of the region's.  The port has no bits for a larger one, and
none is cut to 18 bits (R85, 91_not_in_source.md N21; notes/assumptions/17.md). -/
def encodeB (we : Bool) (adr : Nat) (datW : XipWord) : Option PortWord :=
  if adr < regionWords then some (.b (packB we (BitVec.ofNat 18 adr) datW)) else none

/-- The port word of a well-formed operation (R87), none of an ill-formed one; ignored bits are 0. -/
def encode (o : RegOffsets) : Instr → Option PortWord
  | .rdRdata => some (.r (packR o false .rdata 0#8))
  | .wrRdata dat => some (.r (packR o true .rdata dat))
  | .rdMode => some (.r (packR o false .mode 0#8))
  | .wrMode dat => some (.r (packR o true .mode dat))
  | .rdWdata => some (.r (packR o false .wdata 0#8))
  | .wrWdata dat => some (.r (packR o true .wdata dat))
  | .busRd adr => encodeB false adr 0#32
  | .busWr adr datW => encodeB true adr datW
  | .reset => some (.c 1#1)
  | .nop => some (.c 0#1)

/-- The port word whose bits are `w`, by the width the table gives the row: format C up to 8 bits, format R up to 16,
format B up to 56 (R86; the table's widths 1, 12 and 53 in whole bytes, notes/assumptions/18.md).  Bits above the format's width must
be 0. -/
def portWordOf (nbits w : Nat) : Option PortWord :=
  if nbits ≤ 8 then if w < 2 ^ 1 then some (.c (BitVec.ofNat 1 w)) else none
  else if nbits ≤ 16 then if w < 2 ^ 12 then some (.r (BitVec.ofNat 12 w)) else none
  else if nbits ≤ 56 then if w < 2 ^ 53 then some (.b (BitVec.ofNat 53 w)) else none
  else none

/-- The operation the decoder reads from the bits `w` of a table row of `nbits` bits, with the table's register offsets. -/
def decodeTableWord (nbits w : Nat) : Option Instr :=
  match portWordOf nbits w with
  | none => none
  | some pw =>
    match decode Config.regOffsets pw with
    | .ok i => some i
    | .error _ => none

end Sys2Proof
end

