-- ==== Sys2Proof/Machine/State.lean ====
section
/-! DEFINITION. The state: the record of 10_state.md R20, the parameters, the flash content and the coming inputs, as plain
data (INVENTORY.md, State). -/

namespace Sys2Proof.Machine

/-- Which part of the single bus transaction is in progress (R22, R29). -/
inductive Seq where
  /-- No transaction pending, a request can be accepted. -/
  | idle
  /-- A transaction was accepted and the engine has not reported readiness. -/
  | pending
  /-- The engine reported readiness in the previous tick; acknowledge is high in this tick. -/
  | ack
  deriving DecidableEq, Repr

/-- The engine's read-ahead state, `EMPTY` or an opaque non-empty value (R33, R139). -/
inductive ReadAhead where
  | empty
  | held (token : Nat)
  deriving DecidableEq, Repr

/-- The state `S` of the block: the components of R20 "and nothing else". -/
structure Block where
  /-- `mode.bb`: 1 = the bit-bang bridge owns the pins. -/
  modeBb   : Bool
  /-- `mode.cs`: 1 = flash selected, pin low. -/
  modeCs   : Bool
  /-- `wdata.d`, the data nibble. -/
  wdataD   : Nibble
  /-- `wdata.oe`, the output-enable mask. -/
  wdataOe  : Nibble
  /-- `bb_wr`: a `wdata` write has just taken effect. -/
  bbWr     : Bool
  /-- `bb_clk`: the bit-bang clock level. -/
  bbClk    : Bool
  /-- `pu_cnt`: ticks since reset, until the power-up pulse has fired. -/
  puCnt    : Nat
  /-- `pu_done`: the power-up pulse has fired. -/
  puDone   : Bool
  /-- `seq`. -/
  seq      : Seq
  /-- `seq_adr`: the FlashAddress of the accepted transaction. -/
  seqAdr   : FlashAddress
  /-- `seq_rdata`: the word the engine returned. -/
  seqRdata : XipWord
  /-- `xip_req`: the read the engine has in progress. -/
  xipReq   : Option FlashAddress
  /-- `xip_ra`. -/
  xipRa    : ReadAhead
  deriving DecidableEq, Repr

/-- The reset column of R20 (values of R42), for the parameters of the machine. -/
def Block.atReset (p : Params) : Block where
  modeBb   := false
  modeCs   := p.resetModeCs
  wdataD   := p.resetWdata.extractLsb' 0 4
  wdataOe  := p.resetWdata.extractLsb' 4 4
  bbWr     := false
  bbClk    := false
  puCnt    := 0
  puDone   := false
  seq      := .idle
  seqAdr   := 0x000000#24
  seqRdata := 0x00000000#32
  xipReq   := none
  xipRa    := .empty

/-- Bytes of the flash device by byte address: strictly rising addresses below 2^24 (`Memory.wf`). -/
abbrev Memory := List Host.Cell

/-- The content `Flash` of the flash device (R9): the bytes that are known, and the number of the unknown content that
holds every other byte (notes/assumptions/8.md). -/
structure FlashContent where
  cells : Memory
  era   : Nat
  deriving DecidableEq, Repr

/-- The inputs of one tick (R70, R89): a word on each port, the outside drives, the readiness draw, and whether a command
that software started in the flash chip still runs there after the tick (R67; notes/assumptions/38.md). -/
structure TickInput where
  r     : RWord
  b     : BWord
  c     : CWord
  ext   : Drives
  ready : Bool
  busy  : Bool
  deriving DecidableEq, Repr

/-- The outputs of one tick (R174). -/
structure TickOutputs where
  /-- `ack` (R102). -/
  ack     : Bool
  /-- `dat_r` (R103). -/
  datR    : XipWord
  /-- The value a register read presented in the tick returns (R71). -/
  regRead : Option RegValue
  /-- The six pins (R170). -/
  pins    : PinOutputs
  /-- `line[0..3]` (R172). -/
  lines   : Nibble
  deriving DecidableEq, Repr

/-- The block raises no exception and has no fault of any kind (R205): no reason to fault exists. -/
inductive Fault
  deriving DecidableEq, Repr

/-- Why an operation has no meaning. -/
inductive Refusal where
  /-- Raised by a refused arm of `exec` only: the operation of this mnemonic is not modelled yet (none is, any more).
  Safe: the model stops where the hardware goes on. -/
  | notModelled (mnemonic : String)
  /-- Raised by BUS_RD and BUS_WR for a word address beyond the region, which the 18 bits of the port cannot carry: "a
  model refuses such an input" (R85).  Safe: the model stops where nothing is specified. -/
  | addressBeyondRegion (adr : Nat)
  deriving DecidableEq, Repr

/-- The whole machine: the block, its parameters, and what the outside holds for it (INVENTORY.md, State). -/
structure State where
  /-- The record of R20. -/
  block          : Block
  /-- The parameters of R12; no operation writes them (notes/assumptions/3.md). -/
  params         : Params
  /-- The content of the flash device (R9). -/
  flash          : FlashContent
  /-- A reset left the flash chip in the middle of a command or of a read, so its first answer is open (R232;
  notes/assumptions/9.md). -/
  chipMidCommand : Bool
  /-- A command that software started in bit-bang mode still runs in the flash chip, so what the chip answers to a read is
  open (R67; notes/assumptions/38.md). -/
  chipBusy       : Bool
  /-- The inputs of the coming ticks, the next one first (notes/assumptions/1.md). -/
  script         : List TickInput
  /-- The index of the free values of the coming tick (notes/assumptions/6.md). -/
  draws          : Nat
  /-- The number of the coming tick since reset (R14, R231). -/
  tickNo         : Nat
  /-- The outputs of the tick just passed (notes/assumptions/10.md). -/
  out            : Option TickOutputs
  deriving DecidableEq, Repr

/-- The machine right after reset: the reset column of R20, tick 0 (R42, R231), no flash byte known, no input scripted. -/
def State.reset : State where
  block          := Block.atReset Config.params
  params         := Config.params
  flash          := { cells := [], era := 0 }
  chipMidCommand := false
  chipBusy       := false
  script         := []
  draws          := 0
  tickNo         := 0
  out            := none

end Sys2Proof.Machine
end

