-- ==== Sys2Proof/Machine/Inputs.lean ====
section
/-! DEFINITION. The inputs of the coming tick (30_encoding.md R70, R89) and what its three ports carry. -/

namespace Sys2Proof.Machine

/-- The inputs of a tick for which nothing is scripted: three idle ports; drives and draws free
(notes/assumptions/2.md). -/
def idleInput (n : Nat) : TickInput where
  r     := 0#12
  b     := 0#53
  c     := 0#1
  ext   := Config.outsideDrives n
  ready := Config.readyDraw n
  busy  := Config.busyDraw n

/-- `I_n`, the inputs of the coming tick. -/
def State.input (s : State) : TickInput :=
  match s.script with
  | [] => idleInput s.draws
  | inp :: _ => inp

/-- What the three ports carry, from their words (R71, R72, R73). -/
def TickInput.ports (inp : TickInput) (o : RegOffsets) : Ports where
  reg := decodeR o inp.r
  bus := decodeB inp.b
  rst := decodeC inp.c

/-- What the three ports carry in the coming tick. -/
def State.ports (s : State) : Ports := s.input.ports s.params.regOffsets

/-- All three ports idle (R176). -/
def idlePorts : Ports where
  reg := .idle
  bus := none
  rst := false

/-- What the ports carry, with this access on the register port. -/
def withReg (a : RegAccess) (p : Ports) : Ports where
  reg := a
  bus := p.bus
  rst := p.rst

/-- What the ports carry, with this request (or none) on the bus port. -/
def withBus (q : Option BusRequest) (p : Ports) : Ports where
  reg := p.reg
  bus := q
  rst := p.rst

/-- What the ports carry, with `rst = 1`. -/
def withRst (p : Ports) : Ports where
  reg := p.reg
  bus := p.bus
  rst := true

/-- The operation `step` dispatches on: RESET if `rst = 1` (R73), else the register port's operation, else the bus port's,
else NOP.  A register access to the unmapped offset alone stands for no operation of the table (R83).  Where two ports carry an
operation, either meaning is the whole tick (notes/assumptions/1.md). -/
def presentedInstr (p : Ports) : Except DecodeError Instr :=
  if p.rst then .ok .reset
  else
    match instrOfAccess p.reg, instrOfRequest p.bus with
    | .ok i, _ => .ok i
    | .error _, .ok i => .ok i
    | .error .unmappedOffset, .error _ => .error .unmappedOffset
    | .error _, .error _ => .ok .nop

/-- An input that carries a word on one port and leaves the other two idle, the rest as given (R86, R87). -/
def TickInput.withWord (inp : TickInput) : PortWord → TickInput
  | .r w => { inp with r := w, b := 0#53, c := 0#1 }
  | .b w => { inp with r := 0#12, b := w, c := 0#1 }
  | .c w => { inp with r := 0#12, b := 0#53, c := w }

/-- The machine whose coming tick has this word on its port and the other ports idle. -/
def State.withPortWord (s : State) (w : PortWord) : State :=
  { s with script := s.input.withWord w :: s.script.tail }

end Sys2Proof.Machine
end

