-- ==== Sys2Proof/Machine/Operands.lean ====
section
/-! DEFINITION. Operand assembly and register layouts (30_encoding.md R74 to R78), byte order (20_memory.md R50, R51),
system addresses (R46, R47). -/

namespace Sys2Proof.Machine

/-- The FlashAddress of a word address: `{0b0000, adr[17:0], 0b00}` (R78). -/
def flashAddress (adr : WordAdr) : FlashAddress := 0#4 ++ adr ++ 0#2

/-- The four bytes of a MemRead, lowest address first (R16). -/
abbrev FourBytes := Byte × Byte × Byte × Byte

/-- The 32-bit word of four flash bytes (R50, R133). -/
def pack : ByteOrder → FourBytes → XipWord
  | .little, (b0, b1, b2, b3) => b3 ++ b2 ++ b1 ++ b0
  | .big, (b0, b1, b2, b3) => b0 ++ b1 ++ b2 ++ b3

/-- The byte of flash address `A + k` in the word read at `A` (R51). -/
def byteLane : ByteOrder → (k : Nat) → XipWord → Byte
  | .little, k, w => w.extractLsb' (8 * k) 8
  | .big, k, w => w.extractLsb' (24 - 8 * k) 8

/-- The `mode` register (R74): bit 0 = `bb`, bit 1 = `cs`, bits 7:2 read as 0 (R82). -/
def modeByte (b : Block) : Byte := 0#6 ++ BitVec.ofBool b.modeCs ++ BitVec.ofBool b.modeBb

/-- The `wdata` register (R75): bits 3:0 = `d`, bits 7:4 = `oe`. -/
def wdataByte (b : Block) : Byte := b.wdataOe ++ b.wdataD

/-- The `rdata` register (R76): bit `i` = the level of line `i`, bits 7:4 read as 0 (R82). -/
def rdataByte (lines : Nibble) : Byte := 0#4 ++ lines

/-- The value of a register read: the register's byte, bits above bit 7 read as 0 (R71, R82). -/
def regValue (width : Nat) (v : Byte) : RegValue where
  width := width
  bits  := v.setWidth width

/-- The `bb` bit of a value written to `mode` (R74). -/
def modeBbOf (dat : Byte) : Bool := dat.getLsbD 0

/-- The `cs` bit of a value written to `mode` (R74). -/
def modeCsOf (dat : Byte) : Bool := dat.getLsbD 1

/-- The data nibble of a value written to `wdata` (R75). -/
def wdataDOf (dat : Byte) : Nibble := dat.extractLsb' 0 4

/-- The output-enable mask of a value written to `wdata` (R75). -/
def wdataOeOf (dat : Byte) : Nibble := dat.extractLsb' 4 4

/-- The outside drive of a line: 0 = copi, 1 = cipo, 2 = wp, 3 = hold (R77). -/
def driveOf (ext : Drives) : Fin 4 → Drive
  | 0 => ext.copi
  | 1 => ext.cipo
  | 2 => ext.wp
  | 3 => ext.hold

/-- The word address the platform's decoder presents for a system byte address, if it lies in the region (R47). -/
def systemWordAdr (p : Params) (byteAddress : Nat) : Option WordAdr :=
  if p.flashBase ≤ byteAddress ∧ byteAddress < p.flashBase + Config.spiFlashSize then
    some (BitVec.ofNat 18 ((byteAddress - p.flashBase) / 4))
  else none

/-- The register at a word-addressed register-bus address (R46): the offsets of R12; every other one is unmapped. -/
def systemReg (p : Params) (address : Nat) : Option RegName :=
  if p.regBase ≤ address then
    some (if address - p.regBase < 4 then regOfOffset p.regOffsets (BitVec.ofNat 2 (address - p.regBase)) else .unmapped)
  else none

end Sys2Proof.Machine
end

