-- ==== Sys2Proof/Machine/Flags.lean ====
section
/-! DEFINITION. The per-tick signals of 10_state.md R41: functions of the state and of what the ports carry in the tick. -/

namespace Sys2Proof.Machine

/-- `wr_mode`: a register write event to `mode` with `rst = 0` (R41, R71). -/
def wrMode (p : Ports) : Bool :=
  !p.rst && match p.reg with
    | .write .mode _ => true
    | _ => false

/-- `wr_wdata`: a register write event to `wdata` with `rst = 0` (R41, R71). -/
def wrWdata (p : Ports) : Bool :=
  !p.rst && match p.reg with
    | .write .wdata _ => true
    | _ => false

/-- `pu_fire`: the power-up pulse fires in this tick (R119). -/
def puFire (p : Ports) (s : State) : Bool :=
  !p.rst && !s.block.puDone && decide (s.block.puCnt = s.params.powerupDelay)

/-- `cfg_update`, the configuration-update pulse (R118). -/
def cfgUpdate (p : Ports) (s : State) : Bool := wrMode p || puFire p s

/-- `accept`: a request is accepted in this tick (R95). -/
def accept (p : Ports) (s : State) : Bool :=
  !p.rst && decide (s.block.seq = .idle) && p.bus.isSome

/-- `xip_ready`, the engine's readiness pulse (R131). -/
def xipReady (p : Ports) (s : State) : Bool :=
  !p.rst && s.block.xipReq.isSome && !cfgUpdate p s && s.input.ready

/-- `ack` (R102). -/
def ackNow (s : State) : Bool := decide (s.block.seq = .ack)

/-- `owner` (R121). -/
def owner (s : State) : Owner := if s.block.modeBb then .bitbang else .xip

end Sys2Proof.Machine
end

