-- ==== Sys2Proof/Machine/Ops.lean ====
section
/-! DEFINITION. The shared operations: memory, registers, pins, the four components, and the one step of the block
(44_pins_and_step.md R174).  The block takes no exception (60_exceptions.md R205, R210), so there is no exception entry
and no return; the one operation that forces the state is the reset of R175, inside `tick`. -/

namespace Sys2Proof.Machine

/-! ## Flash memory (R9, R16, R45) -/

/-- Strictly rising addresses, each of the flash device's 2^24 bytes at most once. -/
def Memory.wf : Memory → Bool
  | [] => true
  | [c] => decide (c.1 < Config.flashDeviceSize)
  | c :: d :: m => decide (c.1 < d.1) && Memory.wf (d :: m)

/-- The byte listed at an address, if one is. -/
def Memory.read (m : Memory) (a : Nat) : Option Byte :=
  match m with
  | [] => none
  | c :: m => if c.1 = a then some c.2 else Memory.read m a

/-- The memory with a byte listed at an address. -/
def Memory.write (m : Memory) (a : Nat) (v : Byte) : Memory :=
  match m with
  | [] => [(a, v)]
  | c :: m =>
    if a < c.1 then (a, v) :: c :: m
    else if a = c.1 then (a, v) :: m
    else c :: Memory.write m a v

/-- The memory with bytes listed one after the other from an address, as far as the device reaches.  The block writes no
flash (R16); this lays down what the flash device holds. -/
def Memory.load (m : Memory) (a : Nat) : List Byte → Memory
  | [] => m
  | v :: vs =>
    if a < Config.flashDeviceSize then Memory.load (Memory.write m a v) (a + 1) vs else m

/-- `Flash[a]`: the listed byte, or the era's free byte (notes/assumptions/8.md). -/
def flashRead (f : FlashContent) (a : FlashAddress) : Byte :=
  match Memory.read f.cells a.toNat with
  | some v => v
  | none => Config.flashByte f.era a.toNat

/-- `MemRead(A, 4)` (R16): the four bytes from `A` on, addresses of 24 bits (notes/assumptions/14.md). -/
def memRead (f : FlashContent) (a : FlashAddress) : FourBytes :=
  (flashRead f a, flashRead f (a + 1#24), flashRead f (a + 2#24), flashRead f (a + 3#24))

/-- The flash content after the tick: arbitrary after a tick with `mode.bb = 1` (R9, D17), else unchanged. -/
def nextFlash (s : State) : FlashContent :=
  if s.block.modeBb then { cells := [], era := s.flash.era + 1 } else s.flash

/-! ## Pins and lines (R170 to R173) -/

/-- The pin outputs in the tick (R170): the bridge's values, or the engine's free ones (R171). -/
def pinOutputs (s : State) : PinOutputs :=
  if s.block.modeBb then
    { csN := !s.block.modeCs, clk := s.block.bbClk, dqOe := s.block.wdataOe, dqO := s.block.wdataD }
  else Config.xipPins s.draws

/-- The block's drive of data line `i` (R172). -/
def blockDrive (pins : PinOutputs) (i : Nat) : Drive :=
  if pins.dqOe.getLsbD i then (if pins.dqO.getLsbD i then .high else .low) else .z

/-- The level of a line from the block's drive, the outside drive and a free bit (R172). -/
def lineLevel : (b e : Drive) → (any : Bool) → Bool
  | .z, .low, _ => false
  | .z, .high, _ => true
  | .low, .z, _ => false
  | .high, .z, _ => true
  | .low, .low, _ => false
  | .high, .high, _ => true
  | .low, .high, any => any
  | .high, .low, any => any
  | .z, .z, any => any

/-- `line[i]` in the tick (R172). -/
def line (s : State) (i : Fin 4) : Bool :=
  lineLevel (blockDrive (pinOutputs s) i.val) (driveOf s.input.ext i) ((Config.anyLines s.draws).getLsbD i.val)

/-- `{line[3], line[2], line[1], line[0]}` (R76, R150). -/
def lineLevels (s : State) : Nibble :=
  BitVec.ofBool (line s 3) ++ BitVec.ofBool (line s 2) ++ BitVec.ofBool (line s 1) ++ BitVec.ofBool (line s 0)

/-! ## Register reads and outputs (R71, R102, R103, R174) -/

/-- `reg[NAME]`, the value a read of the register returns in the tick (R15; R116, R150, R152; R83 for the unmapped offset). -/
def regRead (s : State) : RegName → RegValue
  | .rdata => regValue s.params.regDataBits (rdataByte (lineLevels s))
  | .mode => regValue s.params.regDataBits (modeByte s.block)
  | .wdata => regValue s.params.regDataBits (wdataByte s.block)
  | .unmapped =>
    { width := s.params.regDataBits, bits := Config.anyRegValue s.draws s.params.regDataBits }

/-- `dat_r` (R103). -/
def datR (s : State) : XipWord := if ackNow s then s.block.seqRdata else Config.anyDatR s.draws

/-- The outputs of the tick (R174).  They follow the state in a tick with `rst = 1` too (R175). -/
def outputs (p : Ports) (s : State) : TickOutputs where
  ack     := ackNow s
  datR    := datR s
  regRead := match p.reg with
    | .read r => some (regRead s r)
    | _ => none
  pins    := pinOutputs s
  lines   := lineLevels s

/-! ## The mode controller (41_mode_controller.md) -/

/-- `next.mode.bb` (R117). -/
def nextModeBb (p : Ports) (b : Block) : Bool :=
  match p.reg with
  | .write .mode dat => modeBbOf dat
  | _ => b.modeBb

/-- `next.mode.cs` (R117). -/
def nextModeCs (p : Ports) (b : Block) : Bool :=
  match p.reg with
  | .write .mode dat => modeCsOf dat
  | _ => b.modeCs

/-- `next.pu_cnt` (R119). -/
def nextPuCnt (p : Ports) (s : State) : Nat :=
  if s.block.puDone || puFire p s then s.block.puCnt else s.block.puCnt + 1

/-- `next.pu_done` (R119). -/
def nextPuDone (p : Ports) (s : State) : Bool := s.block.puDone || puFire p s

/-! ## The bit-bang bridge (43_bitbang_bridge.md) -/

/-- `next.wdata.d` (R153). -/
def nextWdataD (p : Ports) (b : Block) : Nibble :=
  match p.reg with
  | .write .wdata dat => wdataDOf dat
  | _ => b.wdataD

/-- `next.wdata.oe` (R153). -/
def nextWdataOe (p : Ports) (b : Block) : Nibble :=
  match p.reg with
  | .write .wdata dat => wdataOeOf dat
  | _ => b.wdataOe

/-! ## The sequencer and the engine (40_bus_sequencer.md, 42_xip_engine.md) -/

/-- The FlashAddress of the request on the bus port, if one is presented (R78). -/
def requestAddress (p : Ports) : Option FlashAddress :=
  match p.bus with
  | some q => some (flashAddress q.adr)
  | none => none

/-- `xip_word`, the word that goes with readiness of a read at `a` (R133): free in bit-bang mode (R140), for the first
answer of a chip that a reset interrupted (R232; notes/assumptions/9.md), and while a command that software started still
runs in the chip (R67; notes/assumptions/38.md). -/
def xipWord (s : State) (a : FlashAddress) : XipWord :=
  if s.block.modeBb || s.chipMidCommand || s.chipBusy then Config.anyWord s.draws
  else pack s.params.byteOrder (memRead s.flash a)

/-- `next.seq` (R96 to R99). -/
def nextSeq (p : Ports) (s : State) : Seq :=
  match s.block.seq with
  | .idle => if accept p s then .pending else .idle
  | .pending => if xipReady p s then .ack else .pending
  | .ack => .idle

/-- `next.seq_adr` (R96). -/
def nextSeqAdr (p : Ports) (s : State) : FlashAddress :=
  match s.block.seq, requestAddress p with
  | .idle, some a => a
  | _, _ => s.block.seqAdr

/-- `next.seq_rdata` (R98). -/
def nextSeqRdata (p : Ports) (s : State) : XipWord :=
  match s.block.seq, s.block.xipReq with
  | .pending, some a => if xipReady p s then xipWord s a else s.block.seqRdata
  | _, _ => s.block.seqRdata

/-- `xip_req` after a read in progress is discarded (R137, R138). -/
def discarded (s : State) : Option FlashAddress :=
  match s.params.discardPolicy with
  | .hang => none
  | .restart => some s.block.seqAdr

/-- `next.xip_req` (R130, R132, R136; case distinction of R174). -/
def nextXipReq (p : Ports) (s : State) : Option FlashAddress :=
  match s.block.seq, s.block.xipReq with
  | .idle, r =>
    match requestAddress p with
    | some a => some a
    | none => r
  | .pending, some a =>
    if xipReady p s then none else if cfgUpdate p s then discarded s else some a
  | _, r => r

/-- `next.xip_ra` (R136, R139). -/
def nextXipRa (p : Ports) (s : State) : ReadAhead :=
  match s.block.seq with
  | .pending =>
    if xipReady p s then .held (Config.readAhead s.draws)
    else if cfgUpdate p s then .empty else s.block.xipRa
  | _ => if cfgUpdate p s then .empty else s.block.xipRa

/-! ## The step of the block (R174) -/

/-- The next state of the block in a tick with `rst = 0`: the `else` branch of R174. -/
def runBlock (p : Ports) (s : State) : Block where
  modeBb   := nextModeBb p s.block
  modeCs   := nextModeCs p s.block
  wdataD   := nextWdataD p s.block
  wdataOe  := nextWdataOe p s.block
  bbWr     := wrWdata p
  bbClk    := s.block.bbWr
  puCnt    := nextPuCnt p s
  puDone   := nextPuDone p s
  seq      := nextSeq p s
  seqAdr   := nextSeqAdr p s
  seqRdata := nextSeqRdata p s
  xipReq   := nextXipReq p s
  xipRa    := nextXipRa p s

/-- The next state of the block (R174, R175). -/
def nextBlock (p : Ports) (s : State) : Block :=
  if p.rst then Block.atReset s.params else runBlock p s

/-- Whether the flash chip is left in mid-command after the tick (R232; notes/assumptions/9.md): set by a reset that falls
in bit-bang mode, in a read or while a command runs in the chip, cleared by the first answer the engine gets from a chip in
which none runs. -/
def nextChipMidCommand (p : Ports) (s : State) : Bool :=
  if p.rst then s.chipMidCommand || s.block.modeBb || s.chipBusy || s.block.xipReq.isSome
  else
    s.chipMidCommand &&
      !(decide (s.block.seq = .pending) && xipReady p s && !s.block.modeBb && !s.chipBusy)

/-- Whether a command that software started runs in the flash chip after the tick (R67; notes/assumptions/38.md): one starts
in bit-bang mode only, it ends when the tick's input says so, and the block, its reset included, does nothing to it. -/
def nextChipBusy (s : State) : Bool := s.input.busy && (s.block.modeBb || s.chipBusy)

/-- The tick: everything that happens when the ports carry `p` and the rest of the input is `s.input`. -/
def tick (p : Ports) (s : State) : State where
  block          := nextBlock p s
  params         := s.params
  flash          := nextFlash s
  chipMidCommand := nextChipMidCommand p s
  chipBusy       := nextChipBusy s
  script         := s.script.tail
  draws          := s.draws + 1
  tickNo         := if p.rst then 0 else s.tickNo + 1
  out            := some (outputs p s)

/-! ## The tick in which one operation is presented

An operation takes one port; the other two ports carry what `s.input` puts there (R70; notes/assumptions/1.md). -/

/-- The tick in which the register port carries a register access (R71). -/
def regTick (a : RegAccess) (s : State) : Host.Outcome State Fault Refusal :=
  .next (tick (withReg a s.ports) s)

/-- The tick in which the bus port carries a request (R72); a word address beyond the region is refused (R85). -/
def busTick (we : Bool) (adr : Nat) (datW : XipWord) (s : State) : Host.Outcome State Fault Refusal :=
  if adr < regionWords then
    .next (tick (withBus (some { we := we, adr := BitVec.ofNat 18 adr, datW := datW }) s.ports) s)
  else .refused (.addressBeyondRegion adr)

/-- The tick whose ports carry what the input says, an access to the unmapped offset being no operation of the table (R83). -/
def portTick (s : State) : Host.Outcome State Fault Refusal := .next (tick s.ports s)

/-! ## What the outside lays down -/

/-- The machine with a flash image programmed from an address on, from outside the block (R9, R198). -/
def State.withFlashImage (s : State) (a : Nat) (image : List Byte) : State :=
  { s with flash := { s.flash with cells := Memory.load s.flash.cells a image } }

/-- The machine with these inputs for the coming ticks (R87). -/
def State.withScript (s : State) (script : List TickInput) : State := { s with script := script }

end Sys2Proof.Machine
end

