-- ==== Sys2Proof/Machine/BitbangBridge.lean ====
section
/-! DEFINITION. RD_RDATA, WR_RDATA, RD_WDATA and WR_WDATA (43_bitbang_bridge.md). -/

namespace Sys2Proof.Machine

/-- RD_RDATA (R150): the tick in which the four line levels are read; no state is written for it. -/
def execRdRdata (s : State) : Host.Outcome State Fault Refusal := regTick (.read .rdata) s

/-- WR_RDATA v (R151): ignored; the tick goes on as without it. -/
def execWrRdata (dat : Byte) (s : State) : Host.Outcome State Fault Refusal := regTick (.write .rdata dat) s

/-- RD_WDATA (R152): the tick in which `wdata` is read; no state is written for it. -/
def execRdWdata (s : State) : Host.Outcome State Fault Refusal := regTick (.read .wdata) s

/-- WR_WDATA v (R153): `wdata.d <- v[3:0]`, `wdata.oe <- v[7:4]`, and one clock pulse two ticks later (R154). -/
def execWrWdata (dat : Byte) (s : State) : Host.Outcome State Fault Refusal := regTick (.write .wdata dat) s

end Sys2Proof.Machine
end

