-- ==== Sys2Proof/Machine/BlockControl.lean ====
section
/-! DEFINITION. RESET and NOP (44_pins_and_step.md). -/

namespace Sys2Proof.Machine

/-- RESET (R175): the reset state, whatever the other ports carry. -/
def execReset (s : State) : Host.Outcome State Fault Refusal := .next (tick (withRst s.ports) s)

/-- NOP (R176): the tick with all three ports idle. -/
def execNop (s : State) : Host.Outcome State Fault Refusal := .next (tick idlePorts s)

end Sys2Proof.Machine
end

