-- ==== Sys2Proof/Machine/BusSequencer.lean ====
section
/-! DEFINITION. BUS_RD and BUS_WR (40_bus_sequencer.md): one tick of the request a master holds. -/

namespace Sys2Proof.Machine

/-- BUS_RD a (R100): the tick in which a read request is presented; accepted when `seq = IDLE` (R95). -/
def execBusRd (adr : Nat) (s : State) : Host.Outcome State Fault Refusal := busTick false adr 0#32 s

/-- BUS_WR a, w (R101): as BUS_RD; `w` is looked at by no rule and the flash is unchanged. -/
def execBusWr (adr : Nat) (datW : XipWord) (s : State) : Host.Outcome State Fault Refusal :=
  busTick true adr datW s

end Sys2Proof.Machine
end

