-- ==== Sys2Proof/Machine/ModeController.lean ====
section
/-! DEFINITION. RD_MODE and WR_MODE (41_mode_controller.md). -/

namespace Sys2Proof.Machine

/-- RD_MODE (R116): the tick in which `mode` is read; its value is in the outputs, no state is written for it. -/
def execRdMode (s : State) : Host.Outcome State Fault Refusal := regTick (.read .mode) s

/-- WR_MODE v (R117): `mode.bb <- v[0]`, `mode.cs <- v[1]`, and one configuration-update pulse. -/
def execWrMode (dat : Byte) (s : State) : Host.Outcome State Fault Refusal := regTick (.write .mode dat) s

end Sys2Proof.Machine
end

