-- ==== Sys2Proof/Machine/Dispatch.lean ====
section
/-! DEFINITION. The meaning of each operation: one arm per constructor of Instr. -/

namespace Sys2Proof.Machine

def exec (i : Instr) (s : State) : Host.Outcome State Fault Refusal :=
  match i with
  | .rdRdata => Sys2Proof.Machine.execRdRdata s
  | .wrRdata dat => Sys2Proof.Machine.execWrRdata dat s
  | .rdMode => Sys2Proof.Machine.execRdMode s
  | .wrMode dat => Sys2Proof.Machine.execWrMode dat s
  | .rdWdata => Sys2Proof.Machine.execRdWdata s
  | .wrWdata dat => Sys2Proof.Machine.execWrWdata dat s
  | .busRd adr => Sys2Proof.Machine.execBusRd adr s
  | .busWr adr datW => Sys2Proof.Machine.execBusWr adr datW s
  | .reset => Sys2Proof.Machine.execReset s
  | .nop => Sys2Proof.Machine.execNop s

end Sys2Proof.Machine
end

