-- ==== Sys2Proof/Machine/Step.lean ====
section
/-! DEFINITION. One tick of the machine (44_pins_and_step.md R174): the meaning of what the ports carry. -/

namespace Sys2Proof.Machine

/-- One tick: the operation the ports carry, or the tick of an access to the unmapped offset (R83). -/
def step (s : State) : Host.Outcome State Fault Refusal :=
  match presentedInstr s.ports with
  | .ok i => exec i s
  | .error _ => portTick s

/-- `s` with the operation of a table row as the input of the coming tick (notes/assumptions/1.md, 18.md). -/
def State.withFetchWord (s : State) (nbits w : Nat) : State :=
  match portWordOf nbits w with
  | some pw => s.withPortWord pw
  | none => s

end Sys2Proof.Machine
end

