-- ==== Sys2Proof/Machine/FlashImage.lean ====
section
/-! DEFINITION. What lies in the flash: the multiboot header and the artifacts (47_flash_image_format.md).  Data the
engine reads, not hardware (00_scope.md R5); no operation of the block depends on it. -/

namespace Sys2Proof.Machine

/-- A 24-bit boot offset (R192). -/
abbrev BootOffset := BitVec 24

/-- Why a boot-offset list is rejected. -/
inductive HeaderError where
  /-- More than five offsets: a configuration error (R192, R193, R197). -/
  | tooManyOffsets
  /-- No offset: there is no first one to replicate, and the source does not say what happens (R192; 93 U27: refuse). -/
  | noOffset
  deriving DecidableEq, Repr

/-- The BootHeaderRecord of a boot offset (R191): sync, boot-mode, boot-address, bank-offset, reboot, padding. -/
def bootRecord (off : BootOffset) : List Byte :=
  [0x7E#8, 0xAA#8, 0x99#8, 0x7E#8]
    ++ [0x92#8, 0x00#8, 0x00#8]
    ++ [0x44#8, 0x03#8]
    ++ [off.extractLsb' 16 8, off.extractLsb' 8 8, off.extractLsb' 0 8]
    ++ [0x82#8, 0x00#8, 0x00#8]
    ++ [0x01#8, 0x08#8]
    ++ List.replicate 15 0x00#8

/-- The BootSlotList: exactly five offsets, the first one replicated behind the supplied ones (R192). -/
def bootSlots : List BootOffset → Except HeaderError (List BootOffset)
  | [] => .error .noOffset
  | off :: offs =>
    if 5 < (off :: offs).length then .error .tooManyOffsets
    else .ok (off :: offs ++ List.replicate (5 - (off :: offs).length) off)

/-- `encodeBootHeaders` (R193): five records, in list order. -/
def encodeBootHeaders (offs : List BootOffset) : Except HeaderError (List (List Byte)) :=
  match bootSlots offs with
  | .ok slots => .ok (slots.map bootRecord)
  | .error e => .error e

/-- `mergeImages` (R194). -/
def mergeImages (primary secondary : List Byte) : List Byte := primary ++ secondary.drop primary.length

/-- `padImage` (R195): exactly `targetLength` bytes, zero-filled or truncated. -/
def padImage (src : List Byte) (targetLength : Nat) : List Byte :=
  src.take targetLength ++ List.replicate (targetLength - src.length) 0x00#8

/-- The plain artifact of target length `len` (R196). -/
def plainArtifact (gateware firmware : List Byte) (len : Nat) : List Byte :=
  padImage (mergeImages gateware firmware) len

/-- The multiboot-prefixed artifact of target length `len` (R196). -/
def multibootArtifact (offs : List BootOffset) (gateware firmware : List Byte) (len : Nat) :
    Except HeaderError (List Byte) :=
  match encodeBootHeaders offs with
  | .ok records => .ok (padImage (records.flatten ++ mergeImages gateware firmware) len)
  | .error e => .error e

end Sys2Proof.Machine
end

