-- ==== Sys2Proof/Machine/Programs.lean ====
section
/-! DEFINITION. Program lines and pseudo-operations (30_encoding.md R87, R88). -/

namespace Sys2Proof.Machine

/-- A program line: at most one operation of each format, the outside drives, and whether the readiness draw falls in the
tick (R87); and whether a command runs in the chip after the tick, which the notation has no word for
(notes/assumptions/38.md). -/
structure ProgramLine where
  reg   : Option Instr
  bus   : Option Instr
  rst   : Bool
  ext   : Drives
  ready : Bool
  busy  : Bool
  deriving DecidableEq, Repr

/-- No line driven from outside: `ext=ZZZZ`. -/
def noDrive : Drives := { copi := .z, cipo := .z, wp := .z, hold := .z }

/-- The line of a tick in which nothing is presented. -/
def nopLine : ProgramLine :=
  { reg := none, bus := none, rst := false, ext := noDrive, ready := false, busy := false }

/-- The format R word of an optional operation: 0 (port idle) where there is none; no word for an operation of another
format. -/
def rWordOf (o : RegOffsets) : Option Instr → Option RWord
  | none => some 0#12
  | some i =>
    match encode o i with
    | some (.r w) => some w
    | _ => none

/-- The format B word of an optional operation: 0 (no request) where there is none; no word for an operation of another
format or for a request beyond the region (R85). -/
def bWordOf (o : RegOffsets) : Option Instr → Option BWord
  | none => some 0#53
  | some i =>
    match encode o i with
    | some (.b w) => some w
    | _ => none

/-- The inputs of the tick a line describes (R87, R89), if every operation of the line has a word of its format: a line with
a word address beyond the region is refused (R85; notes/assumptions/17.md). -/
def lineInput (o : RegOffsets) (l : ProgramLine) : Option TickInput :=
  match rWordOf o l.reg, bWordOf o l.bus with
  | some r, some b =>
    some { r := r, b := b, c := BitVec.ofBool l.rst, ext := l.ext, ready := l.ready, busy := l.busy }
  | _, _ => none

/-- BB_ENTER c: `WR_MODE {c, 1}` (R88). -/
def bbEnter (c : Bool) : List Instr := [.wrMode (0#6 ++ BitVec.ofBool c ++ 1#1)]

/-- BB_EXIT: `WR_MODE 0x00` (R88). -/
def bbExit : List Instr := [.wrMode 0x00#8]

/-- BB_PUT v: `WR_WDATA v`, `NOP`, `NOP` (R88). -/
def bbPut (v : Byte) : List Instr := [.wrWdata v, .nop, .nop]

/-- BB_GET: `RD_RDATA` (R88). -/
def bbGet : List Instr := [.rdRdata]

/-- A request held in every tick up to and including the first tick with `ack = 1`, for at most `fuel` ticks: `dat_r` of
that tick and the state after it; none if no acknowledge comes in time (R88, R208). -/
def holdUntilAck (i : Instr) : (fuel : Nat) → State → Option (XipWord × State)
  | 0, _ => none
  | fuel + 1, s =>
    match exec i s with
    | .next t => if ackNow s then some (datR s, t) else holdUntilAck i fuel t
    | .fault _ => none
    | .refused _ => none

/-- READ32 a (R88). -/
def read32 (adr fuel : Nat) (s : State) : Option (XipWord × State) := holdUntilAck (.busRd adr) fuel s

/-- WRITE32 a, w (R88). -/
def write32 (adr : Nat) (datW : XipWord) (fuel : Nat) (s : State) : Option (XipWord × State) :=
  holdUntilAck (.busWr adr datW) fuel s

end Sys2Proof.Machine
end

