-- ==== Sys2Proof/Safety.lean ====
section
/-! DEFINITION. The invariants of the machine (10_state.md R37, R39), its quiescent and hung states (70 R250, 60 R208), and
the duties of master and software (70_reset_and_hazards.md R236 to R243), in the terms claims use. -/

namespace Sys2Proof.Safety

open Sys2Proof.Machine

/-- The value a register read returned in the tick just passed. -/
def readOut (t : State) : Option RegValue :=
  match t.out with
  | some o => o.regRead
  | none => none

/-- `ack` in the tick just passed. -/
def ackOut (t : State) : Bool :=
  match t.out with
  | some o => o.ack
  | none => false

/-- `dat_r` in the tick just passed. -/
def datOut (t : State) : Option XipWord :=
  match t.out with
  | some o => some o.datR
  | none => none

/-- The six pins in the tick just passed. -/
def pinsOut (t : State) : Option PinOutputs :=
  match t.out with
  | some o => some o.pins
  | none => none

/-- What the ports carry in the tick, but for the register port, which is idle. -/
def withoutReg (p : Ports) : Ports := withReg .idle p

/-- What the ports carry in the tick, but for the bus port, which carries no request. -/
def withoutBus (p : Ports) : Ports := withBus none p

/-- R37: a read in progress belongs to the pending transaction. -/
abbrev RequestMatches (b : Block) : Prop :=
  match b.xipReq with
  | none => True
  | some a => b.seq = .pending ∧ a = b.seqAdr

/-- R39. -/
abbrev PowerUpBounded (s : State) : Prop :=
  s.block.puCnt ≤ s.params.powerupDelay ∧ (s.block.puDone = true → s.block.puCnt = s.params.powerupDelay)

/-- R119: the one-shot has counted the ticks since reset, and has fired exactly when tick `POWERUP_DELAY` has passed. -/
abbrev PowerUpTimed (s : State) : Prop :=
  s.block.puCnt = min s.tickNo s.params.powerupDelay ∧
    (s.block.puDone = true ↔ s.params.powerupDelay < s.tickNo)

/-- R48: the FlashAddress is a multiple of 4 in the region. -/
abbrev AddressInRegion (a : FlashAddress) : Prop := a.toNat < Config.spiFlashSize ∧ a.toNat % 4 = 0

/-- What holds in every reachable state. -/
structure Inv (s : State) : Prop where
  request : RequestMatches s.block
  bounded : PowerUpBounded s
  timed   : PowerUpTimed s
  address : AddressInRegion s.block.seqAdr
  memory  : Memory.wf s.flash.cells = true
  params  : s.params.ok = true

/-- A quiescent state (R250). -/
abbrev Quiescent (b : Block) : Prop :=
  b.seq = .idle ∧ b.xipReq = none ∧ b.bbWr = false ∧ b.bbClk = false ∧ b.puDone = true

/-- The hung state (R137, R208): a pending transaction with no read in progress. -/
abbrev Hung (b : Block) : Prop := b.seq = .pending ∧ b.xipReq = none

/-- R237: no register write and no request before the power-up pulse has fired. -/
abbrev WaitsForPowerUp (p : Ports) (s : State) : Prop :=
  s.block.puDone = false → p.bus = none ∧ ∀ r dat, p.reg ≠ .write r dat

/-- R239: no `mode` write while a transaction is pending. -/
abbrev NoModeWritePending (p : Ports) (s : State) : Prop := s.block.seq = .pending → wrMode p = false

/-- R240: no flash-region access in bit-bang mode. -/
abbrev NoBusInBitbang (p : Ports) (s : State) : Prop := s.block.modeBb = true → p.bus = none

/-- R241: two `wdata` writes are at least two ticks apart, and `mode.bb` is not set in one of the two ticks after a `wdata`
write made in XIP mode. -/
abbrev ClocksApart (p : Ports) (s : State) : Prop :=
  (wrWdata p = true → s.block.bbWr = false) ∧
    (s.block.modeBb = false → wrMode p = true → nextModeBb p s.block = true →
      s.block.bbWr = false ∧ s.block.bbClk = false)

/-- R243: no line is driven to opposite levels by the block and the outside in bit-bang mode. -/
abbrev NoContention (s : State) : Prop :=
  s.block.modeBb = true → ∀ i : Fin 4, s.block.wdataOe.getLsbD i.val = true →
    driveOf s.input.ext i = .z ∨
      driveOf s.input.ext i = (if s.block.wdataD.getLsbD i.val then .high else .low)

/-- R244: when software clears `mode.bb` the chip is deselected and no command runs in it any more. -/
abbrev LeavesChipReady (p : Ports) (s : State) : Prop :=
  s.block.modeBb = true → wrMode p = true → nextModeBb p s.block = false →
    s.block.modeCs = false ∧ s.input.busy = false

/-- R236: a request not yet acknowledged in the previous tick is still presented, unchanged. -/
abbrev HoldsRequest (previous now : Ports) (ackedBefore : Bool) : Prop :=
  previous.bus ≠ none → ackedBefore = false → now.bus = previous.bus

end Sys2Proof.Safety
end

