-- ==== Sys2Proof/Certificates/Slice0/Obligations.lean ====
section
/-! DEFINITION. The statements for the provers (OBLIGATIONS.json). -/

open Sys2Proof Sys2Proof.Machine Sys2Proof.Safety

/-! ## Encoding -/

/-- With three different register offsets, decoding the port word of a well-formed operation gives the operation back, at
every value of its operands, and an ill-formed one (a word address beyond the region) has no port word.  The packing is the
spec's own (D23, entry 18). -/
def Obligations.DecodeEncodeAgree : Prop :=
  ∀ (o : RegOffsets) (i : Instr), o.ok = true →
    (WellFormed i = true → ∃ w, encode o i = some w ∧ decode o w = .ok i) ∧
    (WellFormed i = false → encode o i = none)

/-- What the decoder reads from any port word is well-formed: a word address it reads lies in the region (R48, R85). -/
def Obligations.DecodedOperationsWellFormed : Prop :=
  ∀ (o : RegOffsets) (w : PortWord) (i : Instr), decode o w = .ok i → WellFormed i = true

/-- Words of 95_test_vectors.md, "Encodings used above", and V8: each decodes to the operation it stands for. -/
def Obligations.SpecWordsDecode : Prop :=
  decode Config.regOffsets (.r 0x800#12) = .ok .rdRdata ∧
  decode Config.regOffsets (.r 0xCFF#12) = .ok (.wrRdata 0xFF#8) ∧
  decode Config.regOffsets (.r 0x9AB#12) = .ok .rdMode ∧
  decode Config.regOffsets (.r 0xD03#12) = .ok (.wrMode 0x03#8) ∧
  decode Config.regOffsets (.r 0xA00#12) = .ok .rdWdata ∧
  decode Config.regOffsets (.r 0xE11#12) = .ok (.wrWdata 0x11#8) ∧
  decode Config.regOffsets (.b 0x1BFFFF00000000#53) = .ok (.busRd 0x3FFFF) ∧
  decode Config.regOffsets (.b 0x1C0007DEADBEEF#53) = .ok (.busWr 7 0xDEADBEEF#32) ∧
  decode Config.regOffsets (.c 1#1) = .ok .reset ∧
  decode Config.regOffsets (.c 0#1) = .ok .nop

/-- With the default register offsets every format R word decodes by the match and mask of opcode_table.json, and is idle or reserved by R80 otherwise. -/
def Obligations.RegisterWordsFollowTable : Prop :=
  ∀ w : RWord,
    (decode Config.regOffsets (.r w) = .ok .rdRdata ↔ w &&& 0xF00#12 = 0x800#12) ∧
    (decode Config.regOffsets (.r w) = .ok (.wrRdata (w.extractLsb' 0 8)) ↔ w &&& 0xF00#12 = 0xC00#12) ∧
    (decode Config.regOffsets (.r w) = .ok .rdMode ↔ w &&& 0xF00#12 = 0x900#12) ∧
    (decode Config.regOffsets (.r w) = .ok (.wrMode (w.extractLsb' 0 8)) ↔ w &&& 0xF00#12 = 0xD00#12) ∧
    (decode Config.regOffsets (.r w) = .ok .rdWdata ↔ w &&& 0xF00#12 = 0xA00#12) ∧
    (decode Config.regOffsets (.r w) = .ok (.wrWdata (w.extractLsb' 0 8)) ↔ w &&& 0xF00#12 = 0xE00#12) ∧
    (decode Config.regOffsets (.r w) = .error .portIdle ↔ w &&& 0x800#12 = 0x000#12) ∧
    (decode Config.regOffsets (.r w) = .error .unmappedOffset ↔ w &&& 0xB00#12 = 0xB00#12)

/-- Every format B word decodes by the match and mask of opcode_table.json, and is no request otherwise (R81). -/
def Obligations.BusWordsFollowTable : Prop :=
  ∀ (o : RegOffsets) (w : BWord),
    (decode o (.b w) = .ok (.busRd (w.extractLsb' 32 18).toNat) ↔
      w &&& 0x1C000000000000#53 = 0x18000000000000#53) ∧
    (decode o (.b w) = .ok (.busWr (w.extractLsb' 32 18).toNat (w.extractLsb' 0 32)) ↔
      w &&& 0x1C000000000000#53 = 0x1C000000000000#53) ∧
    (decode o (.b w) = .error .noRequest ↔ w &&& 0x18000000000000#53 ≠ 0x18000000000000#53)

/-! ## The step -/

/-- The step runs the operation presented on any port.  RESET is looked for first (R73); where the register port and the
bus port both carry an operation, the step is the meaning of either, with the other as its port input. -/
def Obligations.StepRunsPresentedOperation : Prop :=
  ∀ (s : State) (i : Instr),
    (decode s.params.regOffsets (.c s.input.c) = .ok .reset → step s = exec .reset s) ∧
    (decode s.params.regOffsets (.c s.input.c) = .ok .nop → decode s.params.regOffsets (.r s.input.r) = .ok i → step s = exec i s) ∧
    (decode s.params.regOffsets (.c s.input.c) = .ok .nop → decode s.params.regOffsets (.b s.input.b) = .ok i → step s = exec i s) ∧
    (decode s.params.regOffsets (.c s.input.c) = .ok .nop → decode s.params.regOffsets (.r s.input.r) = .error .portIdle →
      decode s.params.regOffsets (.b s.input.b) = .error .noRequest → step s = exec .nop s)

/-- An operation placed as a table word for the coming tick is what the next step runs (entry 1), in a machine with the
register offsets of the table. -/
def Obligations.StepRunsPlacedWord : Prop :=
  ∀ (s : State) (nbits w : Nat) (i : Instr), s.params.regOffsets = Config.regOffsets →
    decodeTableWord nbits w = some i →
    step (s.withFetchWord nbits w) = exec i (s.withFetchWord nbits w)

/-- Every step completes, whatever the ports carry: the block raises no exception and refuses no word a port can carry. -/
def Obligations.StepIsOneTick : Prop :=
  ∀ s : State, step s = .next (tick s.ports s)

/-- A register access with the offset of no register reaches none: a write has no effect, a read returns a free value.  The spec's
own choice (D26, entry 16). -/
def Obligations.UnmappedAccessReachesNothing : Prop :=
  ∀ s : State,
    (∀ dat, s.ports.reg = .write .unmapped dat →
      ∃ t, step s = .next t ∧ t = tick (withoutReg s.ports) s) ∧
    (s.ports.reg = .read .unmapped →
      ∃ t, step s = .next t ∧ t.block = (tick (withoutReg s.ports) s).block ∧
        readOut t = some { width := s.params.regDataBits, bits := Config.anyRegValue s.draws s.params.regDataBits })

/-! ## Register reads -/

/-- RD_MODE completes in every state and returns `zext({mode.cs, mode.bb})`. -/
def Obligations.ReadModeReturnsMode : Prop :=
  ∀ s : State, ∃ t, exec .rdMode s = .next t ∧
    readOut t = some { width := s.params.regDataBits
                       bits := (BitVec.ofBool s.block.modeCs ++ BitVec.ofBool s.block.modeBb).setWidth _ }

/-- RD_WDATA completes in every state and returns `zext({wdata.oe, wdata.d})`. -/
def Obligations.ReadWdataReturnsWdata : Prop :=
  ∀ s : State, ∃ t, exec .rdWdata s = .next t ∧
    readOut t = some { width := s.params.regDataBits
                       bits := (s.block.wdataOe ++ s.block.wdataD).setWidth _ }

/-- RD_RDATA completes in every state and returns the levels of the four lines in the tick of the read. -/
def Obligations.ReadRdataReturnsLines : Prop :=
  ∀ s : State, ∃ t, exec .rdRdata s = .next t ∧
    readOut t = some { width := s.params.regDataBits
                       bits := (BitVec.ofBool (line s 3) ++ BitVec.ofBool (line s 2) ++ BitVec.ofBool (line s 1) ++
                         BitVec.ofBool (line s 0)).setWidth _ }

/-- In bit-bang mode RD_RDATA shows on each line what its driver puts there: the block's level where the block alone
drives or agrees with the outside, the outside's level where the block does not drive.  The line levels are the spec's
own table (D13, entry 25). -/
def Obligations.ReadRdataShowsDrivers : Prop :=
  ∀ (s : State) (i : Fin 4), s.params.ok = true → s.block.modeBb = true →
    ∃ t v, exec .rdRdata s = .next t ∧ readOut t = some v ∧
      (s.block.wdataOe.getLsbD i.val = true →
        (driveOf s.input.ext i = .z ∨
          driveOf s.input.ext i = (if s.block.wdataD.getLsbD i.val then .high else .low)) →
        v.bits.getLsbD i.val = s.block.wdataD.getLsbD i.val) ∧
      (s.block.wdataOe.getLsbD i.val = false → driveOf s.input.ext i = .low → v.bits.getLsbD i.val = false) ∧
      (s.block.wdataOe.getLsbD i.val = false → driveOf s.input.ext i = .high → v.bits.getLsbD i.val = true)

/-- The three register reads write no state: the tick leaves the block as the same tick without the read, and so leaves
`mode`, `wdata`, the parameters and, in XIP mode, every flash byte as they were. -/
def Obligations.RegisterReadsFrame : Prop :=
  ∀ (i : Instr) (s t : State), i = .rdRdata ∨ i = .rdMode ∨ i = .rdWdata → exec i s = .next t →
    t.block = (tick (withoutReg s.ports) s).block ∧ t.params = s.params ∧
    (s.ports.rst = false →
      t.block.modeBb = s.block.modeBb ∧ t.block.modeCs = s.block.modeCs ∧ t.block.wdataD = s.block.wdataD ∧
      t.block.wdataOe = s.block.wdataOe ∧ t.block.bbWr = false) ∧
    (s.block.modeBb = false → ∀ a, flashRead t.flash a = flashRead s.flash a)

/-! ## Register writes -/

/-- WR_RDATA completes in every state and is ignored: the tick is the same tick without the write.  The spec's own choice
(D26, entry 16). -/
def Obligations.WriteRdataIgnored : Prop :=
  ∀ (s : State) (dat : Byte), exec (.wrRdata dat) s = .next (tick (withoutReg s.ports) s)

/-- WR_MODE completes in every tick with `rst = 0`: bits 0 and 1 go to `mode.bb` and `mode.cs`, and the
configuration-update pulse empties the read-ahead state, also where the value written is the value held. -/
def Obligations.WriteModeEffect : Prop :=
  ∀ (s : State) (dat : Byte), s.ports.rst = false → ∃ t, exec (.wrMode dat) s = .next t ∧
    t.block.modeBb = dat.getLsbD 0 ∧ t.block.modeCs = dat.getLsbD 1 ∧ t.block.xipRa = .empty

/-- What WR_MODE leaves unchanged: `wdata`, `seq_rdata`, the address of the transaction in progress, the clock and the
one-shot as without it; the sequencer is not told of the pulse. -/
def Obligations.WriteModeFrame : Prop :=
  ∀ (s t : State) (dat : Byte), s.ports.rst = false → exec (.wrMode dat) s = .next t →
    t.params = s.params ∧ t.block.wdataD = s.block.wdataD ∧ t.block.wdataOe = s.block.wdataOe ∧
    t.block.bbWr = false ∧ t.block.bbClk = s.block.bbWr ∧ t.block.seqRdata = s.block.seqRdata ∧
    t.block.puCnt = (tick (withoutReg s.ports) s).block.puCnt ∧
    t.block.puDone = (tick (withoutReg s.ports) s).block.puDone ∧
    t.block.seqAdr = (tick (withoutReg s.ports) s).block.seqAdr ∧
    (s.block.seq = .pending → t.block.seq = .pending ∧ t.block.seqAdr = s.block.seqAdr) ∧
    (s.block.seq ≠ .pending → t.block.seq = (tick (withoutReg s.ports) s).block.seq ∧
      t.block.xipReq = (tick (withoutReg s.ports) s).block.xipReq) ∧
    (s.block.modeBb = false → ∀ a, flashRead t.flash a = flashRead s.flash a)

/-- WR_WDATA completes in every tick with `rst = 0`: bits 3:0 go to `wdata.d`, bits 7:4 to `wdata.oe`, and `bb_wr` is
raised, also where the value written is the value held.  The positions of the two fields are the spec's own (D25). -/
def Obligations.WriteWdataEffect : Prop :=
  ∀ (s : State) (dat : Byte), s.ports.rst = false → ∃ t, exec (.wrWdata dat) s = .next t ∧
    (∀ k < 4, t.block.wdataD.getLsbD k = dat.getLsbD k ∧ t.block.wdataOe.getLsbD k = dat.getLsbD (4 + k)) ∧
    t.block.bbWr = true ∧ t.block.bbClk = s.block.bbWr

/-- What WR_WDATA leaves unchanged: `mode`; and the sequencer, the engine and the one-shot go on as without it, so it
raises no configuration-update pulse. -/
def Obligations.WriteWdataFrame : Prop :=
  ∀ (s t : State) (dat : Byte), s.ports.rst = false → exec (.wrWdata dat) s = .next t →
    t.params = s.params ∧ t.block.modeBb = s.block.modeBb ∧ t.block.modeCs = s.block.modeCs ∧
    t.block = { (tick (withoutReg s.ports) s).block with
                wdataD := t.block.wdataD, wdataOe := t.block.wdataOe, bbWr := t.block.bbWr } ∧
    (s.block.modeBb = false → ∀ a, flashRead t.flash a = flashRead s.flash a)

/-- Only a `mode` write and reset change `mode` (R122), in particular the power-up pulse does not (D3, entry 19); and only a
`wdata` write and reset change `wdata`. -/
def Obligations.RegistersChangeOnlyByWrite : Prop :=
  ∀ (i : Instr) (s t : State), exec i s = .next t →
    (t.block.modeBb ≠ s.block.modeBb ∨ t.block.modeCs ≠ s.block.modeCs →
      (∃ dat, i = .wrMode dat) ∨ i = .reset ∨ s.ports.rst = true ∨ ∃ dat, s.ports.reg = .write .mode dat) ∧
    (t.block.wdataD ≠ s.block.wdataD ∨ t.block.wdataOe ≠ s.block.wdataOe →
      (∃ dat, i = .wrWdata dat) ∨ i = .reset ∨ s.ports.rst = true ∨ ∃ dat, s.ports.reg = .write .wdata dat)

/-! ## Bus requests -/

/-- The acceptance condition: `rst = 0`, `seq = IDLE`, `stb = 1` and `cyc = 1`, nothing else; a request in any other state
of the sequencer leaves no trace. -/
def Obligations.AcceptanceCondition : Prop :=
  ∀ s : State,
    (accept s.ports s = true ↔
      s.input.c = 0#1 ∧ s.block.seq = .idle ∧ s.input.b.getLsbD 52 = true ∧ s.input.b.getLsbD 51 = true) ∧
    (s.block.seq ≠ .idle → tick s.ports s = tick (withoutBus s.ports) s)

/-- BUS_RD and BUS_WR with a word address of the region complete in every tick with `rst = 0` and `seq = IDLE`: the request
is accepted, its FlashAddress is four times the word address (D1), and the engine's read starts, also where a
configuration-update pulse falls in the same tick (D30, entry 20). -/
def Obligations.RequestAccepted : Prop :=
  ∀ (s : State) (adr : Nat) (datW : XipWord), adr < 2 ^ 18 → s.ports.rst = false → s.block.seq = .idle →
    ∃ t, exec (.busRd adr) s = .next t ∧ exec (.busWr adr datW) s = .next t ∧
      t.block.seq = .pending ∧ t.block.seqAdr.toNat = 4 * adr ∧ t.block.xipReq = some t.block.seqAdr ∧
      t.block.seqRdata = s.block.seqRdata ∧ ackOut t = false

/-- BUS_RD and BUS_WR while a transaction is in progress complete with no effect of theirs: the tick is the same tick
without the request. -/
def Obligations.RequestIgnoredWhileBusy : Prop :=
  ∀ (s : State) (adr : Nat) (datW : XipWord), adr < 2 ^ 18 → s.block.seq ≠ .idle →
    exec (.busRd adr) s = .next (tick (withoutBus s.ports) s) ∧
    exec (.busWr adr datW) s = .next (tick (withoutBus s.ports) s)

/-- What BUS_RD and BUS_WR leave unchanged: every component but `seq`, `seq_adr` and `xip_req` is as in the same tick
without the request; with an idle register port `mode` and `wdata` keep their values; in XIP mode every flash byte does. -/
def Obligations.RequestFrame : Prop :=
  ∀ (s t : State) (adr : Nat) (datW : XipWord),
    exec (.busRd adr) s = .next t ∨ exec (.busWr adr datW) s = .next t →
    t.params = s.params ∧
    t.block = { (tick (withoutBus s.ports) s).block with
                seq := t.block.seq, seqAdr := t.block.seqAdr, xipReq := t.block.xipReq } ∧
    (s.ports.rst = false → s.ports.reg = .idle →
      t.block.modeBb = s.block.modeBb ∧ t.block.modeCs = s.block.modeCs ∧
      t.block.wdataD = s.block.wdataD ∧ t.block.wdataOe = s.block.wdataOe) ∧
    (s.block.modeBb = false → ∀ a, flashRead t.flash a = flashRead s.flash a)

/-- A bus write is treated as a read of the same address; `dat_w` goes nowhere.  The spec's own reading (U6, entry 15). -/
def Obligations.BusWriteActsAsRead : Prop :=
  ∀ (s : State) (adr : Nat) (datW : XipWord), exec (.busWr adr datW) s = exec (.busRd adr) s

/-- A word address beyond the region is refused ("a model refuses such an input"; D2, entry 17). -/
def Obligations.BeyondRegionRefused : Prop :=
  ∀ (s : State) (adr : Nat) (datW : XipWord), 2 ^ 18 ≤ adr →
    exec (.busRd adr) s = .refused (.addressBeyondRegion adr) ∧
    exec (.busWr adr datW) s = .refused (.addressBeyondRegion adr)

/-! ## The transaction -/

/-- `PENDING` with readiness: `ack = 0` in this tick, `ACK` next, `seq_rdata` the word, the read over and the read-ahead
state non-empty.  The word is the four flash bytes in the byte order of the machine (D7) while the engine owns the pins
and the chip is fit to answer: not left in mid-command by a reset (entry 9), no command of software running in it (entry
38).  It is free in bit-bang mode (D28). -/
def Obligations.ReadinessDeliversWord : Prop :=
  ∀ (s : State) (a : FlashAddress), s.ports.rst = false → s.block.seq = .pending → s.block.xipReq = some a →
    cfgUpdate s.ports s = false → s.input.ready = true →
    ∃ t, step s = .next t ∧ ackOut t = false ∧ t.block.seq = .ack ∧ t.block.xipReq = none ∧
      t.block.xipRa ≠ .empty ∧
      (s.block.modeBb = false → s.chipMidCommand = false → s.chipBusy = false → s.params.byteOrder = .little →
        t.block.seqRdata = flashRead s.flash (a + 3#24) ++ flashRead s.flash (a + 2#24) ++
          flashRead s.flash (a + 1#24) ++ flashRead s.flash a) ∧
      (s.block.modeBb = false → s.chipMidCommand = false → s.chipBusy = false → s.params.byteOrder = .big →
        t.block.seqRdata = flashRead s.flash a ++ flashRead s.flash (a + 1#24) ++
          flashRead s.flash (a + 2#24) ++ flashRead s.flash (a + 3#24)) ∧
      (s.block.modeBb = true → t.block.seqRdata = Config.anyWord s.draws)

/-- The readiness pulse: it can come only with `rst = 0`, a read in progress and no configuration-update pulse, and comes
then exactly if the tick's draw says so; it ends the read and fills the read-ahead state, so it is never reported twice for
one read.  `RequestMatches` is the invariant R37 of `StepKeepsInvariant`. -/
def Obligations.ReadinessIsPulse : Prop :=
  ∀ s t : State, RequestMatches s.block → step s = .next t →
    (xipReady s.ports s = true ↔
      s.ports.rst = false ∧ s.block.xipReq ≠ none ∧ cfgUpdate s.ports s = false ∧ s.input.ready = true) ∧
    (xipReady s.ports s = true →
      t.block.xipReq = none ∧ t.block.xipRa ≠ .empty ∧ xipReady t.ports t = false)

/-- `PENDING` without readiness: the sequencer waits, its address and word kept, and looks at no bus input. -/
def Obligations.PendingWaits : Prop :=
  ∀ s : State, s.ports.rst = false → s.block.seq = .pending → xipReady s.ports s = false →
    ∃ t, step s = .next t ∧ t = tick (withoutBus s.ports) s ∧ ackOut t = false ∧ t.block.seq = .pending ∧
      t.block.seqAdr = s.block.seqAdr ∧ t.block.seqRdata = s.block.seqRdata

/-- The `ACK` tick: `ack = 1`, `dat_r = seq_rdata`, `IDLE` next, the bus inputs ignored. -/
def Obligations.AcknowledgeTick : Prop :=
  ∀ s : State, s.block.seq = .ack →
    ∃ t, step s = .next t ∧ t = tick (withoutBus s.ports) s ∧ ackOut t = true ∧
      datOut t = some s.block.seqRdata ∧ t.block.seq = .idle

/-- `ack` is 1 exactly in a tick with `seq = ACK`; it comes exactly one tick after readiness, and two acknowledge ticks are
never adjacent. -/
def Obligations.AcknowledgeFollowsReadiness : Prop :=
  ∀ s t u : State, step s = .next t → step t = .next u →
    (ackOut t = true ↔ s.block.seq = .ack) ∧
    (ackOut u = true ↔ s.block.seq = .pending ∧ xipReady s.ports s = true) ∧
    ¬(ackOut t = true ∧ ackOut u = true)

/-- One whole transaction of latency `L = wait.length + 1` (R107), a read or a write (R101): accepted in the first tick,
acknowledged with the word at its address in tick `L + 1` after it and in no tick before, idle again after that; whatever the
register port does but write `mode`, and whatever the bus port carries after the first tick.  The chip is fit to answer
(entries 9 and 38). -/
def Obligations.TransactionTiming : Prop :=
  ∀ (s : State) (adr : Nat) (x y z : TickInput) (wait rest : List TickInput),
    s.block.seq = .idle → s.block.puDone = true → s.block.modeBb = false → s.chipMidCommand = false →
    s.chipBusy = false →
    (decode s.params.regOffsets (.b x.b) = .ok (.busRd adr) ∨
      ∃ datW, decode s.params.regOffsets (.b x.b) = .ok (.busWr adr datW)) →
    s.script = x :: wait ++ y :: z :: rest →
    (∀ inp ∈ x :: wait ++ [y, z], decodeC inp.c = false ∧
      ∀ dat, decodeR s.params.regOffsets inp.r ≠ .write .mode dat) →
    (∀ inp ∈ wait, inp.ready = false) → y.ready = true →
    (∀ k < wait.length + 2, ∃ u : State, Host.Core.run core (k + 1) s = .next u ∧ ackOut u = false) ∧
    ∃ t : State, Host.Core.run core (wait.length + 3) s = .next t ∧ t.block.seq = .idle ∧ ackOut t = true ∧
      datOut t = some (pack s.params.byteOrder (memRead s.flash (flashAddress (BitVec.ofNat 18 adr))))

/-! ## The configuration-update pulse and the one-shot -/

/-- A configuration-update pulse: no readiness in its tick and the read-ahead state emptied; the sequencer of a pending
transaction is not told, and its read in progress is dropped or started again by the open parameter DISCARD_POLICY (D9,
entry 3). -/
def Obligations.PulseDiscardsRead : Prop :=
  ∀ s : State, s.ports.rst = false → cfgUpdate s.ports s = true →
    xipReady s.ports s = false ∧ ∃ t, step s = .next t ∧ t.block.xipRa = .empty ∧
      (s.block.seq = .pending →
        t.block.seq = .pending ∧ t.block.seqAdr = s.block.seqAdr ∧ t.block.seqRdata = s.block.seqRdata ∧
        (s.block.xipReq = none → t.block.xipReq = none) ∧
        (s.block.xipReq ≠ none → s.params.discardPolicy = .hang → t.block.xipReq = none) ∧
        (s.block.xipReq ≠ none → s.params.discardPolicy = .restart → t.block.xipReq = some s.block.seqAdr))

/-- The one-shot in a tick with `rst = 0`: it counts to POWERUP_DELAY, fires once with a configuration-update pulse, and
then stands; by itself it changes no register (D3, entry 19). -/
def Obligations.PowerUpOneShot : Prop :=
  ∀ s : State, s.ports.rst = false → ∃ t, step s = .next t ∧
    (s.block.puDone = true → t.block.puDone = true ∧ t.block.puCnt = s.block.puCnt) ∧
    (s.block.puDone = false → s.block.puCnt ≠ s.params.powerupDelay →
      t.block.puDone = false ∧ t.block.puCnt = s.block.puCnt + 1) ∧
    (s.block.puDone = false → s.block.puCnt = s.params.powerupDelay →
      t.block.puDone = true ∧ t.block.puCnt = s.block.puCnt ∧ t.block.xipRa = .empty ∧
      ((∀ dat, s.ports.reg ≠ .write .mode dat) →
        t.block.modeBb = s.block.modeBb ∧ t.block.modeCs = s.block.modeCs))

/-! ## Pins and clock -/

/-- The owner of the pins: in bit-bang mode the bridge's values are on all six pins, whatever the engine does; in XIP mode
the engine's are, which the spec leaves free (D31, entry 26). -/
def Obligations.OwnerDrivesPins : Prop :=
  ∀ s : State, ∃ t, step s = .next t ∧
    (s.block.modeBb = true → pinsOut t = some { csN := !s.block.modeCs, clk := s.block.bbClk,
                                                dqOe := s.block.wdataOe, dqO := s.block.wdataD }) ∧
    (s.block.modeBb = false → pinsOut t = some (Config.xipPins s.draws))

/-- The level of a line from its two drivers, R172 row by row; a floating or contended line is free (D13, entry 25). -/
def Obligations.LineResolution : Prop :=
  ∀ (s : State) (i : Fin 4),
    (blockDrive (pinOutputs s) i.val = .z → driveOf s.input.ext i = .low → line s i = false) ∧
    (blockDrive (pinOutputs s) i.val = .z → driveOf s.input.ext i = .high → line s i = true) ∧
    (blockDrive (pinOutputs s) i.val = .low → driveOf s.input.ext i ≠ .high → line s i = false) ∧
    (blockDrive (pinOutputs s) i.val = .high → driveOf s.input.ext i ≠ .low → line s i = true) ∧
    (blockDrive (pinOutputs s) i.val = .low → driveOf s.input.ext i = .high →
      line s i = (Config.anyLines s.draws).getLsbD i.val) ∧
    (blockDrive (pinOutputs s) i.val = .high → driveOf s.input.ext i = .low →
      line s i = (Config.anyLines s.draws).getLsbD i.val) ∧
    (blockDrive (pinOutputs s) i.val = .z → driveOf s.input.ext i = .z →
      line s i = (Config.anyLines s.draws).getLsbD i.val)

/-- One clock pulse per write: for a write in tick `n` the new nibble stands from tick `n+1` and `bb_clk` is high in tick
`n+2` and not in tick `n+3`, if no other `wdata` write and no reset comes.  The timing is the spec's own reading (D18,
entry 21). -/
def Obligations.WriteClocksOnce : Prop :=
  ∀ (s t₁ t₂ t₃ : State) (dat : Byte), s.ports.rst = false → exec (.wrWdata dat) s = .next t₁ →
    t₁.ports.rst = false → wrWdata t₁.ports = false → step t₁ = .next t₂ →
    t₂.ports.rst = false → wrWdata t₂.ports = false → step t₂ = .next t₃ →
    wdataByte t₁.block = dat ∧ t₁.block.bbClk = s.block.bbWr ∧
    wdataByte t₂.block = dat ∧ t₂.block.bbClk = true ∧
    wdataByte t₃.block = dat ∧ t₃.block.bbClk = false

/-- Writes in adjacent ticks merge their pulses into one of two ticks, and the second nibble appears in its middle (R156). -/
def Obligations.AdjacentWritesMerge : Prop :=
  ∀ (s t₁ t₂ t₃ t₄ : State) (dat₁ dat₂ : Byte), s.ports.rst = false → exec (.wrWdata dat₁) s = .next t₁ →
    t₁.ports.rst = false → exec (.wrWdata dat₂) t₁ = .next t₂ →
    t₂.ports.rst = false → wrWdata t₂.ports = false → step t₂ = .next t₃ →
    t₃.ports.rst = false → wrWdata t₃.ports = false → step t₃ = .next t₄ →
    wdataByte t₁.block = dat₁ ∧ wdataByte t₂.block = dat₂ ∧
    t₂.block.bbClk = true ∧ t₃.block.bbClk = true ∧ t₄.block.bbClk = false

/-! ## RESET and NOP -/

/-- RESET completes in every state with the reset column of R20, whatever else the ports carry, and touches no flash byte
in XIP mode. -/
def Obligations.ResetForcesResetState : Prop :=
  ∀ s : State, ∃ t, exec .reset s = .next t ∧ t.params = s.params ∧ t.tickNo = 0 ∧
    t.block = { modeBb := false, modeCs := s.params.resetModeCs
                wdataD := s.params.resetWdata.extractLsb' 0 4, wdataOe := s.params.resetWdata.extractLsb' 4 4
                bbWr := false, bbClk := false, puCnt := 0, puDone := false
                seq := .idle, seqAdr := 0#24, seqRdata := 0#32, xipReq := none, xipRa := .empty } ∧
    (s.block.modeBb = false → ∀ a, flashRead t.flash a = flashRead s.flash a)

/-- Reset wins over every operation of the same tick (R73, R177). -/
def Obligations.ResetWinsOverOperations : Prop :=
  ∀ (s t : State) (i : Instr), s.ports.rst = true → i ≠ .nop → exec i s = .next t →
    t.block = Block.atReset s.params

/-- Reset drops the pending transaction without an acknowledge, and a request still presented in the next tick is accepted
as a new transaction. -/
def Obligations.ResetDropsTransaction : Prop :=
  ∀ s t : State, exec .reset s = .next t →
    t.block.seq = .idle ∧ t.block.xipReq = none ∧ t.block = Block.atReset s.params ∧
    ∀ u, step t = .next u →
      ackOut u = false ∧
      ∀ q, t.ports.rst = false → t.ports.bus = some q →
        u.block.seq = .pending ∧ u.block.xipReq = some (flashAddress q.adr)

/-- The reset values the source fixes or implies (R42), in the machine right after reset. -/
def Obligations.ResetValues : Prop :=
  State.reset.block.seq = .idle ∧ State.reset.block.xipReq = none ∧ State.reset.block.modeBb = false ∧
  State.reset.block.xipRa = .empty ∧ State.reset.block.puCnt = 0 ∧ State.reset.block.puDone = false

/-- NOP completes in every state: no register is written, no request accepted, the clock follows `bb_wr`, an `ACK` tick
passes.  In a quiescent state it changes no component of the block. -/
def Obligations.NopTick : Prop :=
  ∀ s : State, ∃ t, exec .nop s = .next t ∧ t.params = s.params ∧
    t.block.modeBb = s.block.modeBb ∧ t.block.modeCs = s.block.modeCs ∧
    t.block.wdataD = s.block.wdataD ∧ t.block.wdataOe = s.block.wdataOe ∧
    t.block.bbWr = false ∧ t.block.bbClk = s.block.bbWr ∧ t.block.seqAdr = s.block.seqAdr ∧
    (s.block.seq ≠ .pending → t.block.seq = .idle ∧ t.block.xipReq = s.block.xipReq ∧
      t.block.seqRdata = s.block.seqRdata) ∧
    (s.block.modeBb = false → ∀ a, flashRead t.flash a = flashRead s.flash a) ∧
    (Quiescent s.block → t.block = s.block ∧ ackOut t = false)

/-! ## Hang -/

/-- The hang lasts for ever: from a pending transaction with no read in progress, any number of ticks without reset leaves
it so, and none shows an acknowledge (R137, R208). -/
def Obligations.HangLastsUntilReset : Prop :=
  ∀ (n : Nat) (s : State), Hung s.block → (∀ inp ∈ s.script.take n, decodeC inp.c = false) →
    ∃ t : State, Host.Core.run core n s = .next t ∧ Hung t.block ∧ (0 < n → ackOut t = false)

/-- READ32 does not end on a hung machine, however long it is held (R88, R208). -/
def Obligations.ReadNeverEndsWhileHung : Prop :=
  ∀ (fuel adr : Nat) (s : State), Hung s.block → (∀ inp ∈ s.script.take fuel, decodeC inp.c = false) →
    read32 adr fuel s = none

/-- The machine enters the hung state only by a configuration-update pulse during a pending read, under
`DISCARD_POLICY = hang`. -/
def Obligations.HangNeedsPulse : Prop :=
  ∀ s t : State, step s = .next t → ¬Hung s.block → Hung t.block →
    s.ports.rst = false ∧ s.block.seq = .pending ∧ s.block.xipReq ≠ none ∧ cfgUpdate s.ports s = true ∧
      s.params.discardPolicy = .hang

/-- A master and software that keep R237 (no access before the power-up pulse) and R239 (no `mode` write while a
transaction is pending) never bring the machine to the hung state. -/
def Obligations.DutiesPreventHang : Prop :=
  ∀ s t : State, step s = .next t → WaitsForPowerUp s.ports s → NoModeWritePending s.ports s →
    ¬Hung s.block ∧ (s.block.puDone = false → s.block.seq ≠ .pending) →
    ¬Hung t.block ∧ (t.block.puDone = false → t.block.seq ≠ .pending)

/-! ## Flash -/

/-- In XIP mode no operation changes a byte of the flash, BUS_WR and RESET included. -/
def Obligations.FlashUnchangedInXipMode : Prop :=
  ∀ (i : Instr) (s t : State), exec i s = .next t → s.block.modeBb = false →
    ∀ a, flashRead t.flash a = flashRead s.flash a

/-- After a tick in bit-bang mode every byte of the flash is a new free value (R9; D17, entry 8). -/
def Obligations.FlashArbitraryAfterBitbang : Prop :=
  ∀ (i : Instr) (s t : State), exec i s = .next t → s.block.modeBb = true →
    ∀ a, flashRead t.flash a = Config.flashByte (s.flash.era + 1) a.toNat

/-- The model's choices for R232 and R67 (entries 9 and 38).  A reset during a read, in bit-bang mode or while a command of
software runs in the chip leaves the chip in mid-command; the word delivered by a chip in mid-command or with a command
running is free, and the first one with none running clears the mark in XIP mode; a command starts in bit-bang mode only and
ends by the tick's input, whatever the operation, and none runs after software cleared `mode.bb` by the duty of R244. -/
def Obligations.UnfitChipAnswersFreely : Prop :=
  (∀ s t : State, exec .reset s = .next t →
    s.block.xipReq ≠ none ∨ s.block.modeBb = true ∨ s.chipBusy = true → t.chipMidCommand = true) ∧
  (∀ s t : State, s.chipMidCommand = true ∨ s.chipBusy = true → step s = .next t → s.block.seq = .pending →
    xipReady s.ports s = true → t.block.seqRdata = Config.anyWord s.draws ∧
      t.chipMidCommand = (s.chipMidCommand && (s.block.modeBb || s.chipBusy))) ∧
  (∀ (i : Instr) (s t : State), exec i s = .next t →
    t.chipBusy = (s.input.busy && (s.block.modeBb || s.chipBusy))) ∧
  ∀ s t : State, s.block.modeBb = true → wrMode s.ports = true → nextModeBb s.ports s.block = false →
    LeavesChipReady s.ports s → step s = .next t → t.block.modeBb = false ∧ t.chipBusy = false

/-! ## Invariants and isolation -/

/-- The invariants hold at reset. -/
def Obligations.InvariantAtReset : Prop := Inv State.reset

/-- Every step keeps the invariants: a read in progress is the pending transaction's (R37); the one-shot has counted the
ticks since reset (R39, R119); the FlashAddress is a multiple of 4 in the region (R48); the memory keeps its canonical
form; the parameters stay in their bounds. -/
def Obligations.StepKeepsInvariant : Prop :=
  ∀ s t : State, Inv s → step s = .next t → Inv t

/-- The read-ahead state influences nothing: two machines that differ only in it step to states that differ at most in it,
and show the same outputs (R40; D20, entry 36). -/
def Obligations.ReadAheadInfluencesNothing : Prop :=
  ∀ (s t t' : State) (ra ra' : ReadAhead), step s = .next t →
    step { s with block := { s.block with xipRa := ra } } = .next t' →
    { t' with block := { t'.block with xipRa := ra' } } = { t with block := { t.block with xipRa := ra' } }

/-! ## Addresses, words, images -/

/-- The FlashAddress of a word address is its fourfold, hence a multiple of 4 below 1 MiB (D1). -/
def Obligations.FlashAddressAssembly : Prop :=
  ∀ adr : WordAdr, (flashAddress adr).toNat = 4 * adr.toNat ∧ AddressInRegion (flashAddress adr)

/-- The byte lane of flash address `A + k` in a packed word holds byte `k`, in either byte order (R51). -/
def Obligations.ByteLanes : Prop :=
  ∀ (o : ByteOrder) (b0 b1 b2 b3 : Byte),
    byteLane o 0 (pack o (b0, b1, b2, b3)) = b0 ∧ byteLane o 1 (pack o (b0, b1, b2, b3)) = b1 ∧
    byteLane o 2 (pack o (b0, b1, b2, b3)) = b2 ∧ byteLane o 3 (pack o (b0, b1, b2, b3)) = b3

/-- The platform's decoder presents a request exactly for system addresses of the region, with the word address whose
FlashAddress is the aligned offset from FLASH_BASE (R47); and the register bus reaches each register at its own offset from
REG_BASE, nothing at the other offsets, and not the block below REG_BASE (R46; D2, D4, D5, entry 37). -/
def Obligations.SystemAddressDecoding : Prop :=
  ∀ p : Params, p.ok = true →
    (∀ b, systemWordAdr p b = none ↔ b < p.flashBase ∨ p.flashBase + 0x100000 ≤ b) ∧
    (∀ b adr, systemWordAdr p b = some adr → (flashAddress adr).toNat = (b - p.flashBase) / 4 * 4) ∧
    (∀ r, systemReg p (p.regBase + (offsetOfReg p.regOffsets r).toNat) = some r) ∧
    (∀ k, 4 ≤ k → systemReg p (p.regBase + k) = some .unmapped) ∧
    ∀ a, systemReg p a = none ↔ a < p.regBase

/-- `encodeBootHeaders` gives exactly five records of exactly 32 bytes for one to five offsets, the first offset's record
in the places not supplied, and rejects more than five (R190 to R193). -/
def Obligations.BootHeadersShape : Prop :=
  ∀ (off : BootOffset) (offs : List BootOffset),
    (offs.length < 5 → ∃ rs, encodeBootHeaders (off :: offs) = .ok rs ∧ rs.length = 5 ∧
      (∀ r ∈ rs, r.length = 32) ∧
      ∀ k < 5, rs[k]? = some (bootRecord ((off :: offs).getD k off))) ∧
    (5 ≤ offs.length → encodeBootHeaders (off :: offs) = .error .tooManyOffsets)

/-- `mergeImages` keeps the primary and takes the rest from the secondary, its length being the larger of the two (R194,
corrected by C7); `padImage` gives exactly the target length, zero-filled or truncated (R195). -/
def Obligations.MergeAndPad : Prop :=
  (∀ primary secondary : List Byte,
    (mergeImages primary secondary).length = max primary.length secondary.length ∧
    ∀ k, (mergeImages primary secondary)[k]? = if k < primary.length then primary[k]? else secondary[k]?) ∧
  ∀ (src : List Byte) (targetLength : Nat),
    (padImage src targetLength).length = targetLength ∧
    ∀ k < targetLength, (padImage src targetLength)[k]? = some (src.getD k 0x00#8)

/-- The first 160 bytes of a multiboot-prefixed artifact are its five header records (S8, R196). -/
def Obligations.ArtifactKeepsHeaders : Prop :=
  ∀ (offs : List BootOffset) (gateware firmware : List Byte) (len : Nat) (rs : List (List Byte)),
    encodeBootHeaders offs = .ok rs → 160 ≤ len →
    ∃ image, multibootArtifact offs gateware firmware len = .ok image ∧ image.length = len ∧
      image.take 160 = rs.flatten

/-- What the engine reads of a header record at flash address 0 (R198): the third word carries the boot offset's low byte
in the lane of address 11, in either byte order, and the first word the sync bytes. -/
def Obligations.HeaderWordsReadBack : Prop :=
  ∀ (s : State) (off : BootOffset),
    byteLane .little 3 (pack .little (memRead (s.withFlashImage 0 (bootRecord off)).flash (flashAddress 2#18))) =
      off.extractLsb' 0 8 ∧
    byteLane .big 3 (pack .big (memRead (s.withFlashImage 0 (bootRecord off)).flash (flashAddress 2#18))) =
      off.extractLsb' 0 8 ∧
    pack .little (memRead (s.withFlashImage 0 (bootRecord off)).flash (flashAddress 0#18)) = 0x7E99AA7E#32 ∧
    pack .big (memRead (s.withFlashImage 0 (bootRecord off)).flash (flashAddress 0#18)) = 0x7EAA997E#32
end

