-- ==== Sys2Proof/Laws/Decode.lean ====
section
/-! SUPPORT. Small facts about well-formedness and the decoder's parts. -/

namespace Sys2Proof

@[simp] theorem wellFormed_busRd (adr : Nat) : WellFormed (.busRd adr) = true ↔ adr < regionWords := by
  simp only [WellFormed, decide_eq_true_eq]

@[simp] theorem wellFormed_busWr (adr : Nat) (datW : XipWord) :
    WellFormed (.busWr adr datW) = true ↔ adr < regionWords := by
  simp only [WellFormed, decide_eq_true_eq]

theorem regOffsets_ok_iff (o : RegOffsets) :
    o.ok = true ↔ o.rdata ≠ o.mode ∧ o.rdata ≠ o.wdata ∧ o.mode ≠ o.wdata := by
  simp only [RegOffsets.ok, Bool.and_eq_true, decide_eq_true_eq, and_assoc]

/-- With three different offsets each of the four names is selected by its own offset. -/
theorem regOfOffset_offsetOfReg {o : RegOffsets} (h : o.ok = true) (r : RegName) :
    regOfOffset o (offsetOfReg o r) = r := by
  obtain ⟨a, b, c⟩ := o
  cases r <;> revert h a b c <;> decide

theorem encodeB_eq {adr : Nat} (h : adr < regionWords) (we : Bool) (datW : XipWord) :
    encodeB we adr datW = some (.b (packB we (BitVec.ofNat 18 adr) datW)) := by
  simp only [encodeB, h, if_true]

theorem encodeB_beyond {adr : Nat} (h : regionWords ≤ adr) (we : Bool) (datW : XipWord) :
    encodeB we adr datW = none := by
  simp only [encodeB, Nat.not_lt.2 h, if_false]

/-- A word address of the port lies in the region (R48). -/
theorem toNat_lt_regionWords (adr : WordAdr) : adr.toNat < regionWords := adr.isLt

/-- A register access that stands for an operation is one of the six of R80. -/
theorem instrOfAccess_ok {a : RegAccess} {i : Instr} (h : instrOfAccess a = .ok i) :
    (a = .read .rdata ∧ i = .rdRdata) ∨ (∃ dat, a = .write .rdata dat ∧ i = .wrRdata dat) ∨
    (a = .read .mode ∧ i = .rdMode) ∨ (∃ dat, a = .write .mode dat ∧ i = .wrMode dat) ∨
    (a = .read .wdata ∧ i = .rdWdata) ∨ (∃ dat, a = .write .wdata dat ∧ i = .wrWdata dat) := by
  rcases a with _ | (_ | _ | _ | _) | ⟨_ | _ | _ | _, dat⟩ <;> simp [instrOfAccess] at h <;> subst h <;> simp

/-- A register access that stands for no operation is an idle port or an access to the unmapped offset (R80). -/
theorem instrOfAccess_error {a : RegAccess} {e : DecodeError} (h : instrOfAccess a = .error e) :
    (a = .idle ∧ e = .portIdle) ∨ (a = .read .unmapped ∧ e = .unmappedOffset) ∨
    (∃ dat, a = .write .unmapped dat ∧ e = .unmappedOffset) := by
  rcases a with _ | (_ | _ | _ | _) | ⟨_ | _ | _ | _, dat⟩ <;> simp [instrOfAccess] at h <;> subst h <;> simp

end Sys2Proof
end

