-- ==== Sys2Proof/Laws/Memory.lean ====
section
/-! SUPPORT. The flash memory: read over write, and every operation keeps the canonical form. -/

namespace Sys2Proof.Machine

theorem Memory.read_write_same (m : Memory) (a : Nat) (v : Byte) : Memory.read (Memory.write m a v) a = some v := by
  induction m with
  | nil => simp [Memory.write, Memory.read]
  | cons c m ih =>
    simp only [Memory.write]
    split
    · simp [Memory.read]
    · split
      · simp [Memory.read]
      · rename_i h₁ h₂
        simp [Memory.read, Ne.symm h₂, ih]

theorem Memory.read_write_other (m : Memory) {a b : Nat} (v : Byte) (h : b ≠ a) :
    Memory.read (Memory.write m a v) b = Memory.read m b := by
  induction m with
  | nil => simp [Memory.write, Memory.read, Ne.symm h]
  | cons c m ih =>
    simp only [Memory.write]
    split
    · simp [Memory.read, Ne.symm h]
    · split
      · rename_i h₁ h₂
        subst h₂
        simp [Memory.read, Ne.symm h]
      · simp [Memory.read, ih]

/-- The canonical form of a longer memory, read from the front. -/
theorem Memory.wf_cons (c : Host.Cell) (m : Memory) :
    Memory.wf (c :: m) = true ↔
      c.1 < Config.flashDeviceSize ∧ (∀ d ∈ m, c.1 < d.1) ∧ Memory.wf m = true := by
  induction m generalizing c with
  | nil => simp [Memory.wf]
  | cons d m ih =>
    simp only [Memory.wf, Bool.and_eq_true, decide_eq_true_eq, ih d, List.mem_cons, forall_eq_or_imp]
    constructor
    · rintro ⟨hcd, hd, hdm, hm⟩
      exact ⟨by omega, ⟨hcd, fun e he => lt_trans hcd (hdm e he)⟩, hd, hdm, hm⟩
    · rintro ⟨-, ⟨hcd, -⟩, hd, hdm, hm⟩
      exact ⟨hcd, hd, hdm, hm⟩

/-- The addresses of a written memory are the old ones and the written one. -/
theorem Memory.mem_write {m : Memory} {a : Nat} {v : Byte} {d : Host.Cell} (h : d ∈ Memory.write m a v) :
    d = (a, v) ∨ d ∈ m := by
  induction m with
  | nil => simpa [Memory.write] using h
  | cons c m ih =>
    simp only [Memory.write] at h
    split at h
    · simpa using h
    · split at h
      · rcases List.mem_cons.1 h with h | h
        · exact .inl h
        · exact .inr (List.mem_cons_of_mem _ h)
      · rcases List.mem_cons.1 h with h | h
        · exact .inr (h ▸ List.mem_cons_self)
        · exact (ih h).imp_right (List.mem_cons_of_mem _)

/-- A write keeps the canonical form. -/
theorem Memory.wf_write {m : Memory} {a : Nat} (v : Byte) (hm : Memory.wf m = true)
    (ha : a < Config.flashDeviceSize) : Memory.wf (Memory.write m a v) = true := by
  induction m with
  | nil => simpa [Memory.write, Memory.wf] using ha
  | cons c m ih =>
    obtain ⟨hc, hcm, hm⟩ := (Memory.wf_cons c m).1 hm
    simp only [Memory.write]
    split
    · rename_i hac
      refine (Memory.wf_cons _ _).2 ⟨ha, ?_, (Memory.wf_cons c m).2 ⟨hc, hcm, hm⟩⟩
      simp only [List.mem_cons, forall_eq_or_imp]
      exact ⟨hac, fun d hd => lt_trans hac (hcm d hd)⟩
    · split
      · rename_i _ hac
        subst hac
        exact (Memory.wf_cons _ _).2 ⟨ha, hcm, hm⟩
      · rename_i h₁ h₂
        refine (Memory.wf_cons _ _).2 ⟨hc, fun d hd => ?_, ih hm⟩
        rcases Memory.mem_write hd with rfl | hd
        · exact show c.1 < a by omega
        · exact hcm d hd

/-- Laying down bytes keeps the canonical form. -/
theorem Memory.wf_load {m : Memory} (a : Nat) (vs : List Byte) (hm : Memory.wf m = true) :
    Memory.wf (Memory.load m a vs) = true := by
  induction vs generalizing m a with
  | nil => simpa [Memory.load] using hm
  | cons v vs ih =>
    simp only [Memory.load]
    split
    · exact ih (a + 1) (Memory.wf_write v hm ‹_›)
    · exact hm

/-- The flash after a tick has the canonical form. -/
theorem wf_nextFlash {s : State} (hm : Memory.wf s.flash.cells = true) :
    Memory.wf (nextFlash s).cells = true := by
  unfold nextFlash
  split
  · rfl
  · exact hm

/-- Reset memory has the canonical form. -/
theorem wf_reset : Memory.wf State.reset.flash.cells = true := rfl

end Sys2Proof.Machine
end

