-- ==== Sys2Proof/Laws/State.lean ====
section
/-! SUPPORT. What each update of the state does to each field: one lemma per field, true by rfl. -/

namespace Sys2Proof.Machine

section tick
variable (p : Ports) (s : State)

@[simp] theorem tick_block : (tick p s).block = nextBlock p s := rfl
@[simp] theorem tick_params : (tick p s).params = s.params := rfl
@[simp] theorem tick_flash : (tick p s).flash = nextFlash s := rfl
@[simp] theorem tick_chipMidCommand : (tick p s).chipMidCommand = nextChipMidCommand p s := rfl
@[simp] theorem tick_chipBusy : (tick p s).chipBusy = nextChipBusy s := rfl
@[simp] theorem tick_script : (tick p s).script = s.script.tail := rfl
@[simp] theorem tick_draws : (tick p s).draws = s.draws + 1 := rfl
@[simp] theorem tick_tickNo : (tick p s).tickNo = if p.rst then 0 else s.tickNo + 1 := rfl
@[simp] theorem tick_out : (tick p s).out = some (outputs p s) := rfl

@[simp] theorem runBlock_modeBb : (runBlock p s).modeBb = nextModeBb p s.block := rfl
@[simp] theorem runBlock_modeCs : (runBlock p s).modeCs = nextModeCs p s.block := rfl
@[simp] theorem runBlock_wdataD : (runBlock p s).wdataD = nextWdataD p s.block := rfl
@[simp] theorem runBlock_wdataOe : (runBlock p s).wdataOe = nextWdataOe p s.block := rfl
@[simp] theorem runBlock_bbWr : (runBlock p s).bbWr = wrWdata p := rfl
@[simp] theorem runBlock_bbClk : (runBlock p s).bbClk = s.block.bbWr := rfl
@[simp] theorem runBlock_puCnt : (runBlock p s).puCnt = nextPuCnt p s := rfl
@[simp] theorem runBlock_puDone : (runBlock p s).puDone = nextPuDone p s := rfl
@[simp] theorem runBlock_seq : (runBlock p s).seq = nextSeq p s := rfl
@[simp] theorem runBlock_seqAdr : (runBlock p s).seqAdr = nextSeqAdr p s := rfl
@[simp] theorem runBlock_seqRdata : (runBlock p s).seqRdata = nextSeqRdata p s := rfl
@[simp] theorem runBlock_xipReq : (runBlock p s).xipReq = nextXipReq p s := rfl
@[simp] theorem runBlock_xipRa : (runBlock p s).xipRa = nextXipRa p s := rfl

@[simp] theorem outputs_ack : (outputs p s).ack = ackNow s := rfl
@[simp] theorem outputs_datR : (outputs p s).datR = datR s := rfl
@[simp] theorem outputs_pins : (outputs p s).pins = pinOutputs s := rfl
@[simp] theorem outputs_lines : (outputs p s).lines = lineLevels s := rfl

end tick

section ports
variable (a : RegAccess) (q : Option BusRequest) (p : Ports)

@[simp] theorem withReg_reg : (withReg a p).reg = a := rfl
@[simp] theorem withReg_bus : (withReg a p).bus = p.bus := rfl
@[simp] theorem withReg_rst : (withReg a p).rst = p.rst := rfl
@[simp] theorem withBus_reg : (withBus q p).reg = p.reg := rfl
@[simp] theorem withBus_bus : (withBus q p).bus = q := rfl
@[simp] theorem withBus_rst : (withBus q p).rst = p.rst := rfl
@[simp] theorem withRst_reg : (withRst p).reg = p.reg := rfl
@[simp] theorem withRst_bus : (withRst p).bus = p.bus := rfl
@[simp] theorem withRst_rst : (withRst p).rst = true := rfl
@[simp] theorem idlePorts_reg : idlePorts.reg = .idle := rfl
@[simp] theorem idlePorts_bus : idlePorts.bus = none := rfl
@[simp] theorem idlePorts_rst : idlePorts.rst = false := rfl

end ports

section reset
variable (q : Params)

@[simp] theorem atReset_modeBb : (Block.atReset q).modeBb = false := rfl
@[simp] theorem atReset_modeCs : (Block.atReset q).modeCs = q.resetModeCs := rfl
@[simp] theorem atReset_bbWr : (Block.atReset q).bbWr = false := rfl
@[simp] theorem atReset_bbClk : (Block.atReset q).bbClk = false := rfl
@[simp] theorem atReset_puCnt : (Block.atReset q).puCnt = 0 := rfl
@[simp] theorem atReset_puDone : (Block.atReset q).puDone = false := rfl
@[simp] theorem atReset_seq : (Block.atReset q).seq = .idle := rfl
@[simp] theorem atReset_seqAdr : (Block.atReset q).seqAdr = 0#24 := rfl
@[simp] theorem atReset_seqRdata : (Block.atReset q).seqRdata = 0#32 := rfl
@[simp] theorem atReset_xipReq : (Block.atReset q).xipReq = none := rfl
@[simp] theorem atReset_xipRa : (Block.atReset q).xipRa = .empty := rfl

end reset

section script
variable (s : State) (l : List TickInput) (w : PortWord)

@[simp] theorem withScript_block : (s.withScript l).block = s.block := rfl
@[simp] theorem withScript_params : (s.withScript l).params = s.params := rfl
@[simp] theorem withScript_flash : (s.withScript l).flash = s.flash := rfl
@[simp] theorem withScript_chipMidCommand : (s.withScript l).chipMidCommand = s.chipMidCommand := rfl
@[simp] theorem withScript_chipBusy : (s.withScript l).chipBusy = s.chipBusy := rfl
@[simp] theorem withScript_script : (s.withScript l).script = l := rfl
@[simp] theorem withScript_draws : (s.withScript l).draws = s.draws := rfl
@[simp] theorem withScript_tickNo : (s.withScript l).tickNo = s.tickNo := rfl
@[simp] theorem withScript_out : (s.withScript l).out = s.out := rfl

@[simp] theorem withPortWord_block : (s.withPortWord w).block = s.block := rfl
@[simp] theorem withPortWord_params : (s.withPortWord w).params = s.params := rfl
@[simp] theorem withPortWord_flash : (s.withPortWord w).flash = s.flash := rfl
@[simp] theorem withPortWord_chipMidCommand : (s.withPortWord w).chipMidCommand = s.chipMidCommand := rfl
@[simp] theorem withPortWord_chipBusy : (s.withPortWord w).chipBusy = s.chipBusy := rfl
@[simp] theorem withPortWord_draws : (s.withPortWord w).draws = s.draws := rfl
@[simp] theorem withPortWord_tickNo : (s.withPortWord w).tickNo = s.tickNo := rfl
@[simp] theorem withPortWord_out : (s.withPortWord w).out = s.out := rfl
@[simp] theorem withPortWord_input : (s.withPortWord w).input = s.input.withWord w := rfl

end script

section image
variable (s : State) (a : Nat) (image : List Byte)

@[simp] theorem withFlashImage_block : (s.withFlashImage a image).block = s.block := rfl
@[simp] theorem withFlashImage_params : (s.withFlashImage a image).params = s.params := rfl
@[simp] theorem withFlashImage_era : (s.withFlashImage a image).flash.era = s.flash.era := rfl
@[simp] theorem withFlashImage_cells :
    (s.withFlashImage a image).flash.cells = Memory.load s.flash.cells a image := rfl
@[simp] theorem withFlashImage_chipMidCommand :
    (s.withFlashImage a image).chipMidCommand = s.chipMidCommand := rfl
@[simp] theorem withFlashImage_chipBusy : (s.withFlashImage a image).chipBusy = s.chipBusy := rfl
@[simp] theorem withFlashImage_script : (s.withFlashImage a image).script = s.script := rfl
@[simp] theorem withFlashImage_draws : (s.withFlashImage a image).draws = s.draws := rfl
@[simp] theorem withFlashImage_tickNo : (s.withFlashImage a image).tickNo = s.tickNo := rfl
@[simp] theorem withFlashImage_out : (s.withFlashImage a image).out = s.out := rfl

end image

end Sys2Proof.Machine
end

