-- ==== Sys2Proof/Laws/Ops.lean ====
section
/-! SUPPORT. What each shared operation can do, once: the per-tick signals, the sequencer and the engine, the ticks of the
meanings, and the step. -/

namespace Sys2Proof.Machine

/-! ## The block in a tick -/

/-- In a reset tick the block goes to its reset state (R175). -/
theorem nextBlock_rst {p : Ports} (s : State) (h : p.rst = true) : nextBlock p s = Block.atReset s.params := by
  simp [nextBlock, h]

/-- In any other tick the block takes the `else` branch of R174. -/
theorem nextBlock_run {p : Ports} (s : State) (h : p.rst = false) : nextBlock p s = runBlock p s := by
  simp [nextBlock, h]

/-! ## The signals -/

theorem wrMode_iff (p : Ports) : wrMode p = true ↔ p.rst = false ∧ ∃ dat, p.reg = .write .mode dat := by
  obtain ⟨reg, bus, rst⟩ := p
  cases rst <;> rcases reg with _ | _ | ⟨_ | _, _⟩ <;> simp [wrMode]

theorem wrWdata_iff (p : Ports) : wrWdata p = true ↔ p.rst = false ∧ ∃ dat, p.reg = .write .wdata dat := by
  obtain ⟨reg, bus, rst⟩ := p
  cases rst <;> rcases reg with _ | _ | ⟨_ | _, _⟩ <;> simp [wrWdata]

theorem puFire_iff (p : Ports) (s : State) :
    puFire p s = true ↔ p.rst = false ∧ s.block.puDone = false ∧ s.block.puCnt = s.params.powerupDelay := by
  simp [puFire, and_assoc]

theorem cfgUpdate_iff (p : Ports) (s : State) : cfgUpdate p s = true ↔ wrMode p = true ∨ puFire p s = true := by
  simp [cfgUpdate]

theorem accept_iff (p : Ports) (s : State) :
    accept p s = true ↔ p.rst = false ∧ s.block.seq = .idle ∧ ∃ q, p.bus = some q := by
  simp [accept, and_assoc, Option.isSome_iff_exists]

theorem xipReady_iff (p : Ports) (s : State) :
    xipReady p s = true ↔
      p.rst = false ∧ (∃ a, s.block.xipReq = some a) ∧ cfgUpdate p s = false ∧ s.input.ready = true := by
  simp [xipReady, and_assoc, Option.isSome_iff_exists]

/-- A configuration-update pulse in the tick rules readiness out (R131). -/
theorem not_ready_of_cfgUpdate {p : Ports} {s : State} (h : cfgUpdate p s = true) : xipReady p s = false := by
  simp [xipReady, h]

/-! ## The registers -/

/-- `mode` changes only by a write to it (R117). -/
theorem nextMode_cases (p : Ports) (b : Block) :
    (∃ dat, p.reg = .write .mode dat ∧ nextModeBb p b = modeBbOf dat ∧ nextModeCs p b = modeCsOf dat) ∨
    ((∀ dat, p.reg ≠ .write .mode dat) ∧ nextModeBb p b = b.modeBb ∧ nextModeCs p b = b.modeCs) := by
  obtain ⟨reg, bus, rst⟩ := p
  rcases reg with _ | _ | ⟨_ | _, _⟩ <;> simp [nextModeBb, nextModeCs]

/-- `wdata` changes only by a write to it (R153). -/
theorem nextWdata_cases (p : Ports) (b : Block) :
    (∃ dat, p.reg = .write .wdata dat ∧ nextWdataD p b = wdataDOf dat ∧ nextWdataOe p b = wdataOeOf dat) ∨
    ((∀ dat, p.reg ≠ .write .wdata dat) ∧ nextWdataD p b = b.wdataD ∧ nextWdataOe p b = b.wdataOe) := by
  obtain ⟨reg, bus, rst⟩ := p
  rcases reg with _ | _ | ⟨_ | _, _⟩ <;> simp [nextWdataD, nextWdataOe]

/-- The one-shot: fired, firing, or counting (R119). -/
theorem powerUp_cases (p : Ports) (s : State) :
    (s.block.puDone = true ∧ nextPuDone p s = true ∧ nextPuCnt p s = s.block.puCnt) ∨
    (s.block.puDone = false ∧ puFire p s = true ∧ nextPuDone p s = true ∧ nextPuCnt p s = s.block.puCnt) ∨
    (s.block.puDone = false ∧ puFire p s = false ∧ nextPuDone p s = false ∧
      nextPuCnt p s = s.block.puCnt + 1) := by
  cases h₁ : s.block.puDone <;> cases h₂ : puFire p s <;> simp [nextPuDone, nextPuCnt, h₁, h₂]

/-! ## The sequencer and the engine, by the sequencer's state -/

/-- `IDLE` with no request: nothing happens (R96). -/
theorem idle_none {p : Ports} {s : State} (hs : s.block.seq = .idle) (hb : p.bus = none) :
    nextSeq p s = .idle ∧ nextSeqAdr p s = s.block.seqAdr ∧ nextSeqRdata p s = s.block.seqRdata ∧
      nextXipReq p s = s.block.xipReq := by
  simp [nextSeq, nextSeqAdr, nextSeqRdata, nextXipReq, requestAddress, accept, hs, hb]

/-- `IDLE` with a request: it is accepted and its read starts (R96, R130). -/
theorem idle_some {p : Ports} {s : State} {q : BusRequest} (hr : p.rst = false) (hs : s.block.seq = .idle)
    (hb : p.bus = some q) :
    nextSeq p s = .pending ∧ nextSeqAdr p s = flashAddress q.adr ∧ nextSeqRdata p s = s.block.seqRdata ∧
      nextXipReq p s = some (flashAddress q.adr) := by
  simp [nextSeq, nextSeqAdr, nextSeqRdata, nextXipReq, requestAddress, accept, hr, hs, hb]

/-- The word of a read that the engine makes of a chip that is fit to answer (R133). -/
theorem xipWord_fit {s : State} (a : FlashAddress) (hb : s.block.modeBb = false) (hm : s.chipMidCommand = false)
    (hc : s.chipBusy = false) : xipWord s a = pack s.params.byteOrder (memRead s.flash a) := by
  simp [xipWord, hb, hm, hc]

/-- The word of any other read is free (R140, R232, R67). -/
theorem xipWord_unfit {s : State} (a : FlashAddress)
    (h : s.block.modeBb = true ∨ s.chipMidCommand = true ∨ s.chipBusy = true) : xipWord s a = Config.anyWord s.draws := by
  rcases h with h | h | h <;> simp [xipWord, h]

/-- In XIP mode no command starts in the chip (R67). -/
theorem not_nextChipBusy {s : State} (hb : s.block.modeBb = false) (hc : s.chipBusy = false) :
    nextChipBusy s = false := by
  simp [nextChipBusy, hb, hc]

/-- `PENDING` with readiness (R98, R132, R139). -/
theorem pending_ready {p : Ports} {s : State} {a : FlashAddress} (hs : s.block.seq = .pending)
    (ha : s.block.xipReq = some a) (hx : xipReady p s = true) :
    nextSeq p s = .ack ∧ nextSeqAdr p s = s.block.seqAdr ∧ nextSeqRdata p s = xipWord s a ∧
      nextXipReq p s = none ∧ nextXipRa p s = .held (Config.readAhead s.draws) := by
  simp [nextSeq, nextSeqAdr, nextSeqRdata, nextXipReq, nextXipRa, hs, ha, hx]

/-- `PENDING` without readiness (R97). -/
theorem pending_waits {p : Ports} {s : State} (hs : s.block.seq = .pending) (hx : xipReady p s = false) :
    nextSeq p s = .pending ∧ nextSeqAdr p s = s.block.seqAdr ∧ nextSeqRdata p s = s.block.seqRdata := by
  cases ha : s.block.xipReq <;> simp [nextSeq, nextSeqAdr, nextSeqRdata, hs, hx, ha]

/-- A read in progress that neither ends nor is discarded stays in progress; one that is discarded goes by the policy
(R136 to R138). -/
theorem pending_request {p : Ports} {s : State} {a : FlashAddress} (hs : s.block.seq = .pending)
    (ha : s.block.xipReq = some a) (hx : xipReady p s = false) :
    nextXipReq p s = if cfgUpdate p s then discarded s else some a := by
  simp [nextXipReq, hs, ha, hx]

/-- With no read in progress none appears while `PENDING` (R131, R137). -/
theorem pending_none {p : Ports} {s : State} (hs : s.block.seq = .pending) (ha : s.block.xipReq = none) :
    xipReady p s = false ∧ nextXipReq p s = none := by
  simp [xipReady, nextXipReq, hs, ha]

/-- `ACK` (R99). -/
theorem ack_next {p : Ports} {s : State} (hs : s.block.seq = .ack) :
    nextSeq p s = .idle ∧ nextSeqAdr p s = s.block.seqAdr ∧ nextSeqRdata p s = s.block.seqRdata ∧
      nextXipReq p s = s.block.xipReq := by
  cases ha : s.block.xipReq <;> simp [nextSeq, nextSeqAdr, nextSeqRdata, nextXipReq, hs, ha]

/-- A configuration-update pulse empties the read-ahead state (R136). -/
theorem readAhead_cfgUpdate {p : Ports} {s : State} (h : cfgUpdate p s = true) : nextXipRa p s = .empty := by
  cases hs : s.block.seq <;> simp [nextXipRa, hs, h, not_ready_of_cfgUpdate h]

/-! ## The ticks of the meanings, and the step -/

theorem regTick_eq (a : RegAccess) (s : State) : regTick a s = .next (tick (withReg a s.ports) s) := rfl

theorem busTick_eq {adr : Nat} (h : adr < regionWords) (we : Bool) (datW : XipWord) (s : State) :
    busTick we adr datW s =
      .next (tick (withBus (some { we := we, adr := BitVec.ofNat 18 adr, datW := datW }) s.ports) s) := by
  simp [busTick, h]

theorem busTick_beyond {adr : Nat} (h : regionWords ≤ adr) (we : Bool) (datW : XipWord) (s : State) :
    busTick we adr datW s = .refused (.addressBeyondRegion adr) := by
  simp [busTick, Nat.not_lt.2 h]

/-- The state after a tick depends on a request only through its word address (R97, R101): not on `we` or `dat_w`. -/
theorem tick_bus_congr (reg : RegAccess) (rst : Bool) (q₁ q₂ : BusRequest) (h : q₁.adr = q₂.adr) (s : State) :
    tick { reg := reg, bus := some q₁, rst := rst } s = tick { reg := reg, bus := some q₂, rst := rst } s := by
  simp [tick, nextBlock, runBlock, nextSeq, nextSeqAdr, nextSeqRdata, nextXipReq, nextXipRa, nextPuCnt, nextPuDone,
    nextModeBb, nextModeCs, nextWdataD, nextWdataOe, wrWdata, accept, xipReady, cfgUpdate, wrMode, puFire,
    requestAddress, nextChipMidCommand, outputs, h]

/-- What a meaning can answer: the one tick in which the ports carry its operation, or the refusal of R85. -/
theorem exec_cases (i : Instr) (s : State) :
    (∃ p, exec i s = .next (tick p s)) ∨
      ∃ adr, regionWords ≤ adr ∧ exec i s = .refused (.addressBeyondRegion adr) := by
  cases i with
  | busRd adr =>
    rcases Nat.lt_or_ge adr regionWords with h | h
    · exact .inl ⟨_, busTick_eq h _ _ s⟩
    · exact .inr ⟨adr, h, busTick_beyond h _ _ s⟩
  | busWr adr datW =>
    rcases Nat.lt_or_ge adr regionWords with h | h
    · exact .inl ⟨_, busTick_eq h _ _ s⟩
    · exact .inr ⟨adr, h, busTick_beyond h _ _ s⟩
  | _ => exact .inl ⟨_, rfl⟩

/-- A next state of a meaning is the state after one tick. -/
theorem exec_next {i : Instr} {s t : State} (h : exec i s = .next t) : ∃ p, t = tick p s := by
  rcases exec_cases i s with ⟨p, hp⟩ | ⟨adr, -, hr⟩
  · exact ⟨p, by simpa [hp] using h.symm⟩
  · simp [hr] at h

/-- The first of several steps (Host/Core.lean). -/
theorem run_succ {s t : State} (n : Nat) (h : step s = .next t) :
    Host.Core.run core (n + 1) s = Host.Core.run core n t := by
  have h' : core.step s = .next t := h
  simp [Host.Core.run, h']

end Sys2Proof.Machine
end

