-- ==== Sys2Proof/Laws/PerInstr.lean ====
section
/-! SUPPORT. Facts about every operation as syntax, one lemma per constructor (LAWS.json). -/

namespace Sys2Proof.Laws

/-- An ill-formed operation is a bus request beyond the region, and nothing else (R85). -/
def BeyondRegion.Statement (i : Instr) : Prop :=
  WellFormed i = false → ∃ adr, regionWords ≤ adr ∧ (i = .busRd adr ∨ ∃ datW, i = .busWr adr datW)

theorem BeyondRegion.rdRdata : BeyondRegion.Statement .rdRdata := fun h => nomatch h
theorem BeyondRegion.wrRdata (dat : Byte) : BeyondRegion.Statement (.wrRdata dat) := fun h => nomatch h
theorem BeyondRegion.rdMode : BeyondRegion.Statement .rdMode := fun h => nomatch h
theorem BeyondRegion.wrMode (dat : Byte) : BeyondRegion.Statement (.wrMode dat) := fun h => nomatch h
theorem BeyondRegion.rdWdata : BeyondRegion.Statement .rdWdata := fun h => nomatch h
theorem BeyondRegion.wrWdata (dat : Byte) : BeyondRegion.Statement (.wrWdata dat) := fun h => nomatch h
theorem BeyondRegion.busRd (adr : Nat) : BeyondRegion.Statement (.busRd adr) := fun h =>
  ⟨adr, by simpa [WellFormed] using h, .inl rfl⟩
theorem BeyondRegion.busWr (adr : Nat) (datW : XipWord) : BeyondRegion.Statement (.busWr adr datW) := fun h =>
  ⟨adr, by simpa [WellFormed] using h, .inr ⟨datW, rfl⟩⟩
theorem BeyondRegion.reset : BeyondRegion.Statement .reset := fun h => nomatch h
theorem BeyondRegion.nop : BeyondRegion.Statement .nop := fun h => nomatch h

end Sys2Proof.Laws
end

