-- ==== Sys2Proof/Tests/Slice0.lean ====
section
/-! SUPPORT. Tests: ill-formed operations refused, words written out from the encoding tables, one-tick examples of
95_test_vectors.md (named by their numbers there), and a witness for the hypotheses of every statement. -/

namespace Sys2Proof.Tests

open Sys2Proof.Machine Sys2Proof.Safety

/-! ## States and inputs -/

/-- `POWERUP_DELAY = 4`, the other parameters at their defaults. -/
def demoParams (o : ByteOrder) (d : DiscardPolicy) : Params where
  powerupDelay  := 4
  discardPolicy := d
  flashBase     := 0x20000000
  regBase       := 0x100
  regOffsets    := Config.regOffsets
  regDataBits   := 32
  byteOrder     := o
  resetModeCs   := false
  resetWdata    := 0x00#8

/-- The inputs of a tick, no line driven from outside. -/
def inp (r : RWord) (b : BWord) (c : CWord) (ready : Bool) : TickInput :=
  { r := r, b := b, c := c, ext := noDrive, ready := ready, busy := false }

/-- The inputs of an idle tick. -/
def still : TickInput := inp 0#12 0#53 0#1 false

/-- The quiescent state `Q` of 95_test_vectors.md, with bytes 4 to 7 of the flash known (R100) and these inputs to come. -/
def quiet (script : List TickInput) : State where
  block :=
    { modeBb := false, modeCs := false, wdataD := 0#4, wdataOe := 0#4, bbWr := false, bbClk := false, puCnt := 4
      puDone := true, seq := .idle, seqAdr := 0#24, seqRdata := 0#32, xipReq := none, xipRa := .empty }
  params         := demoParams .little .hang
  flash          := { cells := [(4, 0x92#8), (5, 0x00#8), (6, 0x00#8), (7, 0x44#8)], era := 0 }
  chipMidCommand := false
  chipBusy       := false
  script         := script
  draws          := 0
  tickNo         := 9
  out            := none

/-- `Q` after `BUS_RD 1` was accepted. -/
def pending (script : List TickInput) : State :=
  { quiet script with
    block := { (quiet []).block with seq := .pending, seqAdr := 4#24, xipReq := some 4#24 } }

/-- `Q` in an `ACK` tick. -/
def acking (script : List TickInput) : State :=
  { quiet script with block := { (quiet []).block with seq := .ack, seqRdata := 0x44000092#32 } }

/-- The hung state of R137. -/
def hung (script : List TickInput) : State :=
  { pending script with block := { (pending []).block with xipReq := none } }

/-- Bit-bang mode, chip selected, with this `wdata`. -/
def banging (wdata : Byte) (script : List TickInput) : State :=
  { quiet script with
    block := { (quiet []).block with
      modeBb := true, modeCs := true, wdataD := wdata.extractLsb' 0 4, wdataOe := wdata.extractLsb' 4 4 } }

/-- The state after reset with `demoParams`, `n` ticks on. -/
def starting (n : Nat) (script : List TickInput) : State :=
  { quiet script with
    block := { Block.atReset (demoParams .little .hang) with puCnt := n }, tickNo := n }

/-! ## Well-formedness: each check refuses a term -/

theorem test_busRd_beyond_ill_formed : WellFormed (.busRd 0x40000) = false := by decide
theorem test_busWr_beyond_ill_formed : WellFormed (.busWr 0x40000 0#32) = false := by decide
theorem test_last_word_well_formed : WellFormed (.busRd 0x3FFFF) = true := by decide

/-! ## Words written out field by field (95_test_vectors.md, "Encodings used above") -/

theorem test_decode_rdRdata : decode Config.regOffsets (.r (1#1 ++ 0#1 ++ 0b00#2 ++ 0b00000000#8)) = .ok .rdRdata := by decide
theorem test_decode_wrRdata : decode Config.regOffsets (.r (1#1 ++ 1#1 ++ 0b00#2 ++ 0b11111111#8)) = .ok (.wrRdata 0xFF#8) := by decide
theorem test_decode_rdMode : decode Config.regOffsets (.r (1#1 ++ 0#1 ++ 0b01#2 ++ 0b00000000#8)) = .ok .rdMode := by decide
theorem test_decode_wrMode : decode Config.regOffsets (.r (1#1 ++ 1#1 ++ 0b01#2 ++ 0b00000011#8)) = .ok (.wrMode 0x03#8) := by decide
theorem test_decode_rdWdata : decode Config.regOffsets (.r (1#1 ++ 0#1 ++ 0b10#2 ++ 0b00000000#8)) = .ok .rdWdata := by decide
theorem test_decode_wrWdata : decode Config.regOffsets (.r (1#1 ++ 1#1 ++ 0b10#2 ++ 0b00010001#8)) = .ok (.wrWdata 0x11#8) := by decide
theorem test_decode_busRd :
    decode Config.regOffsets (.b (1#1 ++ 1#1 ++ 0#1 ++ 0b000000000000101000#18 ++ 0#32)) = .ok (.busRd 0x28) := by decide
theorem test_decode_busRd_last :
    decode Config.regOffsets (.b (1#1 ++ 1#1 ++ 0#1 ++ 0b111111111111111111#18 ++ 0#32)) = .ok (.busRd 0x3FFFF) := by decide
theorem test_decode_busWr :
    decode Config.regOffsets (.b (1#1 ++ 1#1 ++ 1#1 ++ 0b000000000000000111#18 ++ 0b11011110101011011011111011101111#32)) =
      .ok (.busWr 7 0xDEADBEEF#32) := by decide
theorem test_decode_reset : decode Config.regOffsets (.c 0b1#1) = .ok .reset := by decide
theorem test_decode_nop : decode Config.regOffsets (.c 0b0#1) = .ok .nop := by decide

/-- V8.4, V8.2, V8.3, V3.10: words that stand for no operation. -/
theorem test_decode_refused :
    decode Config.regOffsets (.r 0x7FF#12) = .error .portIdle ∧ decode Config.regOffsets (.r 0xF55#12) = .error .unmappedOffset ∧
    decode Config.regOffsets (.r 0xB00#12) = .error .unmappedOffset ∧ decode Config.regOffsets (.b 0x10000100000000#53) = .error .noRequest ∧
    decode Config.regOffsets (.b 0x08000100000000#53) = .error .noRequest := by decide

/-- The words of the table's rows, encoded. -/
theorem test_encode_words :
    encode Config.regOffsets .rdMode = some (.r 0x900#12) ∧ encode Config.regOffsets (.wrWdata 0x10#8) = some (.r 0xE10#12) ∧
    encode Config.regOffsets (.busRd 5) = some (.b 0x18000500000000#53) ∧ encode Config.regOffsets .reset = some (.c 1#1) := by decide

/-- R85: no word, and no line, for a word address beyond the region; R87: no line with an operation on the other port. -/
theorem test_encode_refuses :
    encode Config.regOffsets (.busWr 0x40000 0#32) = none ∧
    lineInput Config.regOffsets { nopLine with bus := some (.busRd 0x40000) } = none ∧
    lineInput Config.regOffsets { nopLine with reg := some (.busRd 0) } = none ∧
    lineInput Config.regOffsets { nopLine with bus := some (.busRd 5) } = some (inp 0#12 0x18000500000000#53 0#1 false) := by
  decide

/-- R12: other register offsets, with `mode` at 3 and offset 1 unmapped. -/
theorem test_other_offsets :
    decode { rdata := 0#2, mode := 3#2, wdata := 2#2 } (.r 0xF03#12) = .ok (.wrMode 0x03#8) ∧
    decode { rdata := 0#2, mode := 3#2, wdata := 2#2 } (.r 0x900#12) = .error .unmappedOffset ∧
    encode { rdata := 0#2, mode := 3#2, wdata := 2#2 } .rdMode = some (.r 0xB00#12) := by decide

/-- Table words by the table's widths, and a bit above the format's width. -/
theorem test_table_words :
    decodeTableWord 16 0xD03 = some (.wrMode 0x03#8) ∧ decodeTableWord 56 0x18000100000000 = some (.busRd 1) ∧
    decodeTableWord 8 1 = some .reset ∧ decodeTableWord 8 0 = some .nop ∧ decodeTableWord 16 0x1900 = none := by
  decide

/-! ## Values of 95_test_vectors.md -/

/-- V1. -/
theorem test_flash_address :
    flashAddress 0x00028#18 = 0x0000A0#24 ∧ flashAddress 0x09A00#18 = 0x026800#24 ∧
    flashAddress 0x3FFFF#18 = 0x0FFFFC#24 := by decide

/-- V2, three rows in both orders. -/
theorem test_pack :
    pack .little (0x7E#8, 0xAA#8, 0x99#8, 0x7E#8) = 0x7E99AA7E#32 ∧
    pack .big (0x7E#8, 0xAA#8, 0x99#8, 0x7E#8) = 0x7EAA997E#32 ∧
    pack .little (0x01#8, 0x02#8, 0x03#8, 0x04#8) = 0x04030201#32 ∧
    pack .big (0x01#8, 0x02#8, 0x03#8, 0x04#8) = 0x01020304#32 ∧
    pack .little (0x80#8, 0x00#8, 0x00#8, 0x00#8) = 0x00000080#32 := by decide

/-- R51: the lanes of the big-endian word. -/
theorem test_lanes : byteLane .big 0 0x01020304#32 = 0x01#8 ∧ byteLane .little 0 0x01020304#32 = 0x04#8 := by decide

/-- R100's example: the word at readiness. -/
theorem test_readiness_word :
    (tick idlePorts (pending [inp 0#12 0#53 0#1 true])).block.seqRdata = 0x44000092#32 := by decide

/-- R67: a command still running when `mode.bb` is cleared makes the word of a read free, until it has ended. -/
theorem test_busy_chip :
    (tick (withReg (.write .mode 0x00#8) idlePorts) (banging 0x00#8 [{ still with busy := true }])).chipBusy = true ∧
    (tick idlePorts { quiet [still] with chipBusy := true }).chipBusy = false ∧
    (tick idlePorts (quiet [{ still with busy := true }])).chipBusy = false := by decide

/-- V4.2: a bus write starts a read of its address. -/
theorem test_busWr : (tick ((inp 0#12 0x1C0007DEADBEEF#53 0#1 false).ports Config.regOffsets) (quiet [])).block.xipReq = some 0x00001C#24 := by
  decide

/-- V5.3: bits 7:2 of a `mode` write are ignored. -/
theorem test_wrMode : modeByte (tick (withReg (.write .mode 0xFF#8) idlePorts) (quiet [still])).block = 0x03#8 := by decide

/-- V5.7: the pulse comes in tick 4 and not in tick 3. -/
theorem test_powerUp :
    puFire idlePorts (starting 3 []) = false ∧ puFire idlePorts (starting 4 []) = true ∧
    (tick idlePorts (starting 4 [still])).block.puDone = true ∧
    (tick idlePorts (starting 4 [still])).block.puCnt = 4 := by decide

/-- V6, both policies: a `mode` write during a pending read. -/
theorem test_discard :
    (tick (withReg (.write .mode 0x00#8) idlePorts) (pending [inp 0#12 0#53 0#1 true])).block.xipReq = none ∧
    (tick (withReg (.write .mode 0x00#8) idlePorts)
      { pending [inp 0#12 0#53 0#1 true] with params := demoParams .little .restart }).block.xipReq =
      some 4#24 := by decide

/-- V7.3: `WR_WDATA 0xA5`, read back. -/
theorem test_wrWdata :
    wdataByte (tick (withReg (.write .wdata 0xA5#8) idlePorts) (quiet [still])).block = 0xA5#8 := by decide

/-- V7.5: `wdata = 0x10`, `ext = 111Z`. -/
theorem test_rdRdata :
    rdataByte (lineLevels (banging 0x10#8 [{ still with ext := { copi := .z, cipo := .high, wp := .high, hold := .high } }])) =
      0x0E#8 := by decide

/-- V7.10 and V7.7: an agreeing drive, all lines driven. -/
theorem test_rdRdata_driven :
    rdataByte (lineLevels (banging 0x11#8 [{ still with ext := { copi := .high, cipo := .low, wp := .low, hold := .low } }])) =
      0x01#8 ∧
    rdataByte (lineLevels (banging 0xF6#8 [still])) = 0x06#8 := by decide

/-- V7.17: the chip-select pin. -/
theorem test_chip_select : (pinOutputs (banging 0x00#8 [])).csN = false := by decide

/-- V9.4: reset wins over `WR_MODE 0x03` and `BUS_RD 1`. -/
theorem test_reset_wins :
    (tick ((inp 0xD03#12 0x18000100000000#53 1#1 false).ports Config.regOffsets) (quiet [])).block = Block.atReset (demoParams .little .hang) := by
  decide

/-- V10. -/
theorem test_nop_quiet : (tick idlePorts (quiet [still])).block = (quiet []).block := by decide

/-- S3 and S4: record 3 of the example. -/
theorem test_boot_record :
    bootRecord 157696#24 =
      [0x7E#8, 0xAA#8, 0x99#8, 0x7E#8, 0x92#8, 0x00#8, 0x00#8, 0x44#8, 0x03#8, 0x02#8, 0x68#8, 0x00#8, 0x82#8, 0x00#8,
       0x00#8, 0x01#8, 0x08#8] ++ List.replicate 15 0x00#8 := by decide

/-- R192's example and S5. -/
theorem test_boot_slots :
    bootSlots [1#24, 2#24] = .ok [1#24, 2#24, 1#24, 1#24, 1#24] ∧
    bootSlots [1#24, 2#24, 3#24, 4#24, 5#24, 6#24] = .error .tooManyOffsets := by
  constructor <;> rfl

/-- S7, corrected. -/
theorem test_merge :
    mergeImages [0xAA#8, 0xBB#8] [0x01#8, 0x02#8, 0x03#8, 0x04#8, 0x05#8] = [0xAA#8, 0xBB#8, 0x03#8, 0x04#8, 0x05#8] ∧
    mergeImages [0xAA#8, 0xBB#8, 0xCC#8] [0x01#8, 0x02#8] = [0xAA#8, 0xBB#8, 0xCC#8] := by decide

/-! ## Witnesses: states and operands that meet the hypotheses of each statement -/

theorem witness_decodeEncodeAgree :
    Config.regOffsets.ok = true ∧ WellFormed (.busRd 0x3FFFF) = true ∧ WellFormed (.busWr 0 0xFFFFFFFF#32) = true ∧
    WellFormed (.wrMode 0xFF#8) = true ∧ WellFormed (.busRd 0x40000) = false := by decide

theorem witness_decodedOperationsWellFormed : decode Config.regOffsets (.b 0x1BFFFFFFFFFFFF#53) = .ok (.busRd 0x3FFFF) := by decide

theorem witness_stepRunsPresentedOperation :
    (decode Config.regOffsets (.c (quiet [inp 0xD03#12 0#53 1#1 false]).input.c) = .ok .reset) ∧
    (decode Config.regOffsets (.c (quiet [inp 0xD03#12 0x18000100000000#53 0#1 false]).input.c) = .ok .nop ∧
      decode Config.regOffsets (.r (quiet [inp 0xD03#12 0x18000100000000#53 0#1 false]).input.r) = .ok (.wrMode 0x03#8) ∧
      decode Config.regOffsets (.b (quiet [inp 0xD03#12 0x18000100000000#53 0#1 false]).input.b) = .ok (.busRd 1)) ∧
    (decode Config.regOffsets (.c (quiet [still]).input.c) = .ok .nop ∧ decode Config.regOffsets (.r (quiet [still]).input.r) = .error .portIdle ∧
      decode Config.regOffsets (.b (quiet [still]).input.b) = .error .noRequest) := by decide

theorem witness_stepRunsPlacedWord :
    (quiet []).params.regOffsets = Config.regOffsets ∧
    decodeTableWord 16 0xFFF = none ∧ decodeTableWord 16 0xEFF = some (.wrWdata 0xFF#8) ∧
    decodeTableWord 56 0x1FFFFFFFFFFFFF = some (.busWr 0x3FFFF 0xFFFFFFFF#32) ∧ decodeTableWord 8 1 = some .reset := by
  decide

theorem witness_unmappedAccess :
    (quiet [inp 0xF55#12 0#53 0#1 false]).ports.reg = .write .unmapped 0x55#8 ∧
    (quiet [inp 0xB00#12 0#53 0#1 false]).ports.reg = .read .unmapped := by decide

/-- Lines 0 and 3: driven by the block alone, left to the outside low and high. -/
theorem witness_readRdataShowsDrivers :
    (banging 0x18#8 [{ still with ext := { copi := .z, cipo := .high, wp := .low, hold := .low } }]).params.ok = true ∧
    (banging 0x18#8 []).block.modeBb = true ∧ (banging 0x18#8 []).block.wdataOe.getLsbD 0 = true ∧
    (banging 0x18#8 []).block.wdataOe.getLsbD 3 = false ∧
    driveOf (banging 0x18#8 [{ still with ext := { copi := .z, cipo := .high, wp := .low, hold := .low } }]).input.ext 0 = .z ∧
    driveOf (banging 0x18#8 [{ still with ext := { copi := .z, cipo := .high, wp := .low, hold := .low } }]).input.ext 3 = .low ∧
    driveOf (banging 0x18#8 [{ still with ext := { copi := .z, cipo := .high, wp := .low, hold := .low } }]).input.ext 1 = .high := by
  decide

theorem witness_registerReadsFrame :
    (∃ t, exec .rdRdata (quiet [still]) = .next t) ∧ (∃ t, exec .rdMode (quiet [still]) = .next t) ∧
    (∃ t, exec .rdWdata (quiet [still]) = .next t) ∧ (quiet [still]).ports.rst = false ∧
    (quiet [still]).block.modeBb = false :=
  ⟨⟨_, rfl⟩, ⟨_, rfl⟩, ⟨_, rfl⟩, rfl, rfl⟩

/-- For WriteModeEffect and WriteModeFrame, with a pending and an idle sequencer. -/
theorem witness_writeMode :
    (∃ t, exec (.wrMode 0x03#8) (pending [still]) = .next t) ∧ (pending [still]).ports.rst = false ∧
    (pending [still]).block.seq = .pending ∧ (pending [still]).block.modeBb = false ∧
    (∃ t, exec (.wrMode 0x00#8) (quiet [still]) = .next t) ∧ (quiet [still]).ports.rst = false ∧
    (quiet [still]).block.seq ≠ .pending :=
  ⟨⟨_, rfl⟩, rfl, rfl, rfl, ⟨_, rfl⟩, rfl, nofun⟩

/-- For WriteWdataEffect and WriteWdataFrame. -/
theorem witness_writeWdata :
    (∃ t, exec (.wrWdata 0xFF#8) (quiet [still]) = .next t) ∧ (quiet [still]).ports.rst = false ∧
    (quiet [still]).block.modeBb = false :=
  ⟨⟨_, rfl⟩, rfl, rfl⟩

theorem witness_registersChangeOnlyByWrite :
    (∃ t, exec (.wrMode 0x01#8) (quiet [still]) = .next t ∧ t.block.modeBb ≠ (quiet [still]).block.modeBb) ∧
    ∃ t, exec .reset (banging 0x11#8 [still]) = .next t ∧ t.block.wdataD ≠ (banging 0x11#8 [still]).block.wdataD :=
  ⟨⟨_, rfl, by decide⟩, ⟨_, rfl, by decide⟩⟩

theorem witness_acceptanceCondition :
    accept (quiet [inp 0#12 0x18000000000000#53 0#1 false]).ports (quiet [inp 0#12 0x18000000000000#53 0#1 false]) = true ∧
    (acking []).block.seq ≠ .idle := by decide

/-- The first and the last word of the region. -/
theorem witness_requestAccepted :
    0 < 2 ^ 18 ∧ 0x3FFFF < 2 ^ 18 ∧ (quiet [still]).ports.rst = false ∧ (quiet [still]).block.seq = .idle := by decide

theorem witness_requestIgnoredWhileBusy :
    0x3FFFF < 2 ^ 18 ∧ (pending [still]).block.seq ≠ .idle ∧ (acking [still]).block.seq ≠ .idle := by decide

theorem witness_requestFrame :
    (∃ t, exec (.busRd 0x3FFFF) (quiet [still]) = .next t) ∧ (∃ t, exec (.busWr 0 0#32) (quiet [still]) = .next t) ∧
    (quiet [still]).ports.rst = false ∧ (quiet [still]).ports.reg = .idle ∧ (quiet [still]).block.modeBb = false :=
  ⟨⟨_, rfl⟩, ⟨_, rfl⟩, rfl, rfl, rfl⟩

theorem witness_beyondRegionRefused :
    2 ^ 18 ≤ 0x40000 ∧ exec (.busRd 0x40000) (quiet []) = .refused (.addressBeyondRegion 0x40000) :=
  ⟨by decide, rfl⟩

/-- The hypotheses of ReadinessDeliversWord, its two XIP clauses with the orders little and big, and its bit-bang clause. -/
theorem witness_readinessDeliversWord :
    (pending [inp 0#12 0#53 0#1 true]).ports.rst = false ∧ (pending []).block.seq = .pending ∧
    (pending []).block.xipReq = some 4#24 ∧
    cfgUpdate (pending [inp 0#12 0#53 0#1 true]).ports (pending [inp 0#12 0#53 0#1 true]) = false ∧
    (pending [inp 0#12 0#53 0#1 true]).input.ready = true ∧ (pending []).block.modeBb = false ∧
    (pending []).chipMidCommand = false ∧ (pending []).chipBusy = false ∧ (pending []).params.byteOrder = .little ∧
    ({ pending [] with params := demoParams .big .hang }).params.byteOrder = .big ∧
    ({ (pending []).block with modeBb := true }).modeBb = true := by decide

theorem witness_readinessIsPulse :
    RequestMatches (pending [inp 0#12 0#53 0#1 true]).block ∧
    xipReady (pending [inp 0#12 0#53 0#1 true]).ports (pending [inp 0#12 0#53 0#1 true]) = true ∧
    ∃ t, step (pending [inp 0#12 0#53 0#1 true]) = .next t :=
  ⟨⟨rfl, rfl⟩, by decide, ⟨_, rfl⟩⟩

theorem witness_pendingWaits :
    (pending [still]).ports.rst = false ∧ (pending [still]).block.seq = .pending ∧
    xipReady (pending [still]).ports (pending [still]) = false := by decide

theorem witness_acknowledgeTick : (acking [still]).block.seq = .ack := by decide

theorem witness_acknowledgeFollowsReadiness :
    ∃ t u, step (pending [inp 0#12 0#53 0#1 true, still]) = .next t ∧ step t = .next u ∧ ackOut u = true :=
  ⟨_, _, rfl, rfl, rfl⟩

/-- `BUS_RD 1` and `BUS_WR 1` in the first tick only, with latency 2. -/
theorem witness_transactionTiming :
    (quiet []).block.seq = .idle ∧ (quiet []).block.puDone = true ∧ (quiet []).block.modeBb = false ∧
    (quiet []).chipMidCommand = false ∧ (quiet []).chipBusy = false ∧
    decode (quiet []).params.regOffsets (.b 0x18000100000000#53) = .ok (.busRd 1) ∧
    decode (quiet []).params.regOffsets (.b 0x1C0001FFFFFFFF#53) = .ok (.busWr 1 0xFFFFFFFF#32) ∧
    (quiet [inp 0#12 0x18000100000000#53 0#1 false, still, inp 0#12 0#53 0#1 true, still]).script =
      inp 0#12 0x18000100000000#53 0#1 false :: [still] ++ inp 0#12 0#53 0#1 true :: still :: [] ∧
    (∀ x ∈ inp 0#12 0x18000100000000#53 0#1 false :: [still] ++ [inp 0#12 0#53 0#1 true, still],
      decodeC x.c = false ∧ ∀ dat, decodeR (quiet []).params.regOffsets x.r ≠ .write .mode dat) ∧
    (∀ x ∈ [still], x.ready = false) ∧ (inp 0#12 0#53 0#1 true).ready = true := by decide

/-- A pulse in `IDLE`, during a read under either policy, and in the hung state. -/
theorem witness_pulseDiscardsRead :
    (pending [inp 0xD00#12 0#53 0#1 true]).ports.rst = false ∧
    cfgUpdate (pending [inp 0xD00#12 0#53 0#1 true]).ports (pending [inp 0xD00#12 0#53 0#1 true]) = true ∧
    (pending []).block.seq = .pending ∧ (pending []).block.xipReq ≠ none ∧ (hung []).block.xipReq = none ∧
    (pending []).params.discardPolicy = .hang ∧
    ({ pending [] with params := demoParams .little .restart }).params.discardPolicy = .restart := by decide

/-- Counting, about to fire, fired; no `mode` write in the tick. -/
theorem witness_powerUpOneShot :
    (starting 3 [still]).ports.rst = false ∧ (starting 3 []).block.puDone = false ∧
    (starting 3 []).block.puCnt ≠ (starting 3 []).params.powerupDelay ∧
    (starting 4 []).block.puDone = false ∧ (starting 4 []).block.puCnt = (starting 4 []).params.powerupDelay ∧
    (∀ dat, (starting 4 [still]).ports.reg ≠ .write .mode dat) ∧ (quiet []).block.puDone = true := by decide

theorem witness_ownerDrivesPins : (banging 0x11#8 []).block.modeBb = true ∧ (quiet []).block.modeBb = false := by decide

/-- The block leaves line 3, drives line 0 high and line 1 low; the outside drives each of the three ways. -/
theorem witness_lineResolution :
    blockDrive (pinOutputs (banging 0x31#8 [])) 3 = .z ∧ blockDrive (pinOutputs (banging 0x31#8 [])) 0 = .high ∧
    blockDrive (pinOutputs (banging 0x31#8 [])) 1 = .low ∧
    driveOf (banging 0x31#8 [still]).input.ext 3 = .z ∧
    driveOf (banging 0x31#8 [{ still with ext := ⟨.low, .high, .z, .low⟩ }]).input.ext 3 = .low ∧
    driveOf (banging 0x31#8 [{ still with ext := ⟨.low, .high, .z, .high⟩ }]).input.ext 3 = .high ∧
    driveOf (banging 0x31#8 [{ still with ext := ⟨.low, .high, .z, .low⟩ }]).input.ext 0 = .low ∧
    driveOf (banging 0x31#8 [{ still with ext := ⟨.low, .high, .z, .low⟩ }]).input.ext 1 = .high := by decide

theorem witness_writeClocksOnce :
    ∃ t₁ t₂ t₃, (banging 0x00#8 [still, still, still]).ports.rst = false ∧
      exec (.wrWdata 0x11#8) (banging 0x00#8 [still, still, still]) = .next t₁ ∧ t₁.ports.rst = false ∧
      wrWdata t₁.ports = false ∧ step t₁ = .next t₂ ∧ t₂.ports.rst = false ∧ wrWdata t₂.ports = false ∧
      step t₂ = .next t₃ :=
  ⟨_, _, _, rfl, rfl, rfl, rfl, rfl, rfl, rfl, rfl⟩

theorem witness_adjacentWritesMerge :
    ∃ t₁ t₂ t₃ t₄, (banging 0x00#8 [still, still, still, still]).ports.rst = false ∧
      exec (.wrWdata 0x11#8) (banging 0x00#8 [still, still, still, still]) = .next t₁ ∧ t₁.ports.rst = false ∧
      exec (.wrWdata 0x10#8) t₁ = .next t₂ ∧ t₂.ports.rst = false ∧ wrWdata t₂.ports = false ∧ step t₂ = .next t₃ ∧
      t₃.ports.rst = false ∧ wrWdata t₃.ports = false ∧ step t₃ = .next t₄ :=
  ⟨_, _, _, _, rfl, rfl, rfl, rfl, rfl, rfl, rfl, rfl, rfl, rfl⟩

theorem witness_resetForcesResetState : (pending []).block.modeBb = false := by decide

theorem witness_resetWinsOverOperations :
    (quiet [inp 0#12 0#53 1#1 false]).ports.rst = true ∧ Instr.wrMode 0x03#8 ≠ .nop ∧
    ∃ t, exec (.wrMode 0x03#8) (quiet [inp 0#12 0#53 1#1 false]) = .next t :=
  ⟨rfl, nofun, ⟨_, rfl⟩⟩

/-- P3, ticks 8 and 9: a request held across the reset. -/
theorem witness_resetDropsTransaction :
    ∃ t u, exec .reset (pending [inp 0#12 0x18000500000000#53 1#1 false, inp 0#12 0x18000500000000#53 0#1 false]) = .next t ∧
      step t = .next u ∧ t.ports.rst = false ∧ t.ports.bus = some { we := false, adr := 5#18, datW := 0#32 } :=
  ⟨_, _, rfl, rfl, rfl, rfl⟩

theorem witness_nopTick :
    (acking [still]).block.seq ≠ .pending ∧ (quiet [still]).block.modeBb = false ∧ Quiescent (quiet [still]).block := by
  decide

/-- For HangLastsUntilReset and ReadNeverEndsWhileHung. -/
theorem witness_hung : Hung (hung [still, still]).block ∧
    ∀ x ∈ (hung [still, still]).script.take 2, decodeC x.c = false := by decide

theorem witness_hangNeedsPulse :
    ∃ t, step (pending [inp 0xD00#12 0#53 0#1 true]) = .next t ∧ ¬Hung (pending [inp 0xD00#12 0#53 0#1 true]).block ∧
      Hung t.block :=
  ⟨_, rfl, by decide, by decide⟩

theorem witness_dutiesPreventHang :
    (∃ t, step (pending [still]) = .next t) ∧ WaitsForPowerUp (pending [still]).ports (pending [still]) ∧
    NoModeWritePending (pending [still]).ports (pending [still]) ∧ ¬Hung (pending [still]).block ∧
    ((pending [still]).block.puDone = false → (pending [still]).block.seq ≠ .pending) :=
  ⟨⟨_, rfl⟩, nofun, fun _ => rfl, by decide, nofun⟩

theorem witness_flashUnchangedInXipMode :
    (∃ t, exec (.busWr 0 0xFFFFFFFF#32) (quiet [still]) = .next t) ∧ (quiet [still]).block.modeBb = false :=
  ⟨⟨_, rfl⟩, rfl⟩

theorem witness_flashArbitraryAfterBitbang :
    (∃ t, exec (.wrMode 0x00#8) (banging 0x00#8 [still]) = .next t) ∧ (banging 0x00#8 [still]).block.modeBb = true :=
  ⟨⟨_, rfl⟩, rfl⟩

/-- Resets in a read, in bit-bang mode and with a command running; a readiness of an unfit chip; a chip left ready. -/
theorem witness_unfitChipAnswersFreely :
    ((∃ t, exec .reset (pending [still]) = .next t) ∧ (pending [still]).block.xipReq ≠ none) ∧
    ((∃ t, exec .reset (banging 0x00#8 [still]) = .next t) ∧ (banging 0x00#8 [still]).block.modeBb = true) ∧
    (∃ t, exec .reset { quiet [still] with chipBusy := true } = .next t) ∧
    (∃ t, step { pending [inp 0#12 0#53 0#1 true] with chipMidCommand := true } = .next t) ∧
    (∃ t, step { pending [inp 0#12 0#53 0#1 true] with chipBusy := true } = .next t) ∧
    (pending []).block.seq = .pending ∧
    xipReady (pending [inp 0#12 0#53 0#1 true]).ports (pending [inp 0#12 0#53 0#1 true]) = true ∧
    (∃ t, exec .nop (quiet [{ still with busy := true }]) = .next t) :=
  ⟨⟨⟨_, rfl⟩, nofun⟩, ⟨⟨_, rfl⟩, rfl⟩, ⟨_, rfl⟩, ⟨_, rfl⟩, ⟨_, rfl⟩, rfl, rfl, ⟨_, rfl⟩⟩

/-- The last clause of UnfitChipAnswersFreely: `mode.bb` cleared with the chip deselected and no command running. -/
theorem witness_leavesChipReady :
    ∃ s t : State, s.block.modeBb = true ∧ wrMode s.ports = true ∧ nextModeBb s.ports s.block = false ∧
      LeavesChipReady s.ports s ∧ step s = .next t :=
  ⟨{ banging 0x00#8 [inp 0xD00#12 0#53 0#1 false] with
       block := { (banging 0x00#8 []).block with modeCs := false } }, _,
    rfl, rfl, rfl, fun _ _ _ => ⟨rfl, rfl⟩, rfl⟩

theorem witness_stepKeepsInvariant : Inv (pending [still]) ∧ ∃ t, step (pending [still]) = .next t :=
  ⟨{ request := ⟨rfl, rfl⟩, bounded := by decide, timed := by decide, address := by decide, memory := by decide,
     params := by decide }, ⟨_, rfl⟩⟩

theorem witness_readAheadInfluencesNothing :
    ∃ t t', step (pending [still]) = .next t ∧
      step { pending [still] with block := { (pending [still]).block with xipRa := .held 7 } } = .next t' :=
  ⟨_, _, rfl, rfl⟩

/-- The edges of the region from both sides; the registers and the first offsets that are none. -/
theorem witness_systemAddressDecoding :
    (demoParams .little .hang).ok = true ∧ systemReg (demoParams .little .hang) 0xFF = none ∧
    systemReg (demoParams .little .hang) 0x100 = some .rdata ∧ systemReg (demoParams .little .hang) 0x102 = some .wdata ∧
    systemReg (demoParams .little .hang) 0x103 = some .unmapped ∧
    systemReg (demoParams .little .hang) 0x104 = some .unmapped ∧
    systemWordAdr (demoParams .little .hang) 0x1FFFFFFF = none ∧
    systemWordAdr (demoParams .little .hang) 0x20000000 = some 0#18 ∧
    systemWordAdr (demoParams .little .hang) 0x200FFFFF = some 0x3FFFF#18 ∧
    systemWordAdr (demoParams .little .hang) 0x20100000 = none := by decide

/-- Five offsets at most. -/
theorem witness_bootHeadersShape :
    ([1#24, 2#24, 3#24, 4#24] : List BootOffset).length < 5 ∧ 5 ≤ ([1#24, 2#24, 3#24, 4#24, 5#24] : List BootOffset).length := by
  decide

theorem witness_mergeAndPad : 1 < [0xAA#8, 0xBB#8].length ∧ 3 < 4 := by decide

theorem witness_artifactKeepsHeaders : (∃ rs, encodeBootHeaders [160#24] = .ok rs) ∧ 160 ≤ 160 :=
  ⟨⟨_, rfl⟩, Nat.le_refl _⟩

end Sys2Proof.Tests
end

section
/-! PROOFS. A step is one tick whatever the ports carry (44_pins_and_step.md R174): what `step` runs, case by case, and the
tick each case comes to. -/

namespace Sys2Proof.Proofs

open Sys2Proof.Machine Sys2Proof.Safety

/-- What `step` dispatches on: RESET, an operation of the register port, one of the bus port, NOP on idle ports, or an access
to the unmapped offset alone (R73, R81, R83). -/
theorem presentedInstr_cases (p : Ports) :
    (p.rst = true ∧ presentedInstr p = .ok .reset) ∨
    (∃ i, instrOfAccess p.reg = .ok i ∧ presentedInstr p = .ok i) ∨
    (∃ i, instrOfRequest p.bus = .ok i ∧ presentedInstr p = .ok i) ∨
    (∃ e, presentedInstr p = .error e) ∨
    (p = idlePorts ∧ presentedInstr p = .ok .nop) := by
  obtain ⟨reg, bus, rst⟩ := p
  cases rst with
  | true => exact .inl ⟨rfl, rfl⟩
  | false =>
    cases hr : instrOfAccess reg with
    | ok i => exact .inr (.inl ⟨i, rfl, by simp [presentedInstr, hr]⟩)
    | error e =>
      cases bus with
      | some q => exact .inr (.inr (.inl ⟨_, rfl, by simp [presentedInstr, hr, instrOfRequest]⟩))
      | none =>
        rcases instrOfAccess_error hr with ⟨rfl, rfl⟩ | ⟨rfl, rfl⟩ | ⟨dat, rfl, rfl⟩
        · exact .inr (.inr (.inr (.inr ⟨rfl, rfl⟩)))
        · exact .inr (.inr (.inr (.inl ⟨_, rfl⟩)))
        · exact .inr (.inr (.inr (.inl ⟨_, rfl⟩)))

theorem exec_reset (s : State) : exec .reset s = .next (tick (withRst s.ports) s) := rfl

theorem exec_nop (s : State) : exec .nop s = .next (tick idlePorts s) := rfl

theorem withRst_of_rst {p : Ports} (h : p.rst = true) : withRst p = p := by
  obtain ⟨reg, bus, rst⟩ := p
  cases h
  rfl

/-- The operation the register port carries runs the tick of all three ports. -/
theorem exec_of_access {s : State} {i : Instr} (h : instrOfAccess s.ports.reg = .ok i) :
    exec i s = .next (tick s.ports s) := by
  have hreg : exec i s = regTick s.ports.reg s := by
    rcases instrOfAccess_ok h with ⟨ha, rfl⟩ | ⟨dat, ha, rfl⟩ | ⟨ha, rfl⟩ | ⟨dat, ha, rfl⟩ | ⟨ha, rfl⟩ |
      ⟨dat, ha, rfl⟩ <;> rw [ha] <;> rfl
  exact hreg

/-- A request for the address the bus port carries runs the tick of all three ports: no other bit of a request matters. -/
theorem busTick_of_request {s : State} {q : BusRequest} (h : s.ports.bus = some q) (we : Bool) (datW : XipWord) :
    busTick we q.adr.toNat datW s = .next (tick s.ports s) := by
  have hports : s.ports = withBus (some q) s.ports := by rw [← h]; rfl
  have htick : tick (withBus (some { we := we, adr := q.adr, datW := datW }) s.ports) s =
      tick (withBus (some q) s.ports) s := tick_bus_congr _ _ _ _ rfl s
  rw [busTick_eq (toNat_lt_regionWords q.adr), BitVec.ofNat_toNat, BitVec.setWidth_eq, htick, ← hports]

/-- The operation the bus port carries runs the tick of all three ports. -/
theorem exec_of_request {s : State} {i : Instr} (h : instrOfRequest s.ports.bus = .ok i) :
    exec i s = .next (tick s.ports s) := by
  cases hb : s.ports.bus with
  | none => simp [instrOfRequest, hb] at h
  | some q =>
    obtain ⟨we, adr, datW⟩ := q
    cases we with
    | false =>
      obtain rfl : .busRd adr.toNat = i := by simpa [instrOfRequest, hb] using h
      exact busTick_of_request hb false 0#32
    | true =>
      obtain rfl : .busWr adr.toNat datW = i := by simpa [instrOfRequest, hb] using h
      exact busTick_of_request hb true datW

/-- Every step is the tick of what the ports carry (R174). -/
@[simp] theorem step_eq_tick (s : State) : step s = .next (tick s.ports s) := by
  unfold step
  rcases presentedInstr_cases s.ports with ⟨hr, hp⟩ | ⟨i, hi, hp⟩ | ⟨i, hi, hp⟩ | ⟨e, hp⟩ | ⟨hidle, hp⟩ <;> rw [hp]
  · simp only [exec_reset, withRst_of_rst hr]
  · exact exec_of_access hi
  · exact exec_of_request hi
  · rfl
  · simp only [exec_nop, hidle]

end Sys2Proof.Proofs
end

section
/-! PROOFS. The bus sequencer in a tick (40_bus_sequencer.md R95 to R106): the outputs, the acceptance condition on the input
bits, and where the request on the bus port matters. -/

namespace Sys2Proof.Proofs

open Sys2Proof.Machine Sys2Proof.Safety

/-! ## The acknowledge -/

/-- `ack` is a function of the state alone (R102). -/
@[simp] theorem ackOut_tick (p : Ports) (s : State) : ackOut (tick p s) = decide (s.block.seq = .ack) := rfl

@[simp] theorem datOut_tick (p : Ports) (s : State) : datOut (tick p s) = some (datR s) := rfl

theorem datR_ack {s : State} (hs : s.block.seq = .ack) : datR s = s.block.seqRdata := by
  simp [datR, ackNow, hs]

theorem xipReady_rst {p : Ports} (s : State) (h : p.rst = true) : xipReady p s = false := by
  simp [xipReady, h]

/-- The sequencer is in `ACK` after a tick exactly when readiness came in it, in `PENDING` (R98, R102). -/
theorem nextBlock_seq_ack_iff (p : Ports) (s : State) :
    (nextBlock p s).seq = .ack ↔ s.block.seq = .pending ∧ xipReady p s = true := by
  cases hr : p.rst with
  | true => simp [nextBlock_rst s hr, xipReady_rst s hr]
  | false =>
    rw [nextBlock_run s hr, runBlock_seq]
    cases hs : s.block.seq with
    | idle => cases ha : accept p s <;> simp [nextSeq, hs, ha]
    | pending => cases hx : xipReady p s <;> simp [nextSeq, hs, hx]
    | ack => simp [ack_next hs]

/-- After an `ACK` tick the sequencer is in `IDLE`, by R99 or by the reset. -/
theorem nextBlock_seq_of_ack (p : Ports) {s : State} (hs : s.block.seq = .ack) : (nextBlock p s).seq = .idle := by
  cases hr : p.rst with
  | true => rw [nextBlock_rst s hr, atReset_seq]
  | false => rw [nextBlock_run s hr, runBlock_seq, (ack_next hs).1]

/-! ## The input bits of an acceptance -/

theorem ports_rst_eq_false_iff (s : State) : s.ports.rst = false ↔ s.input.c = 0#1 := by
  have h : ∀ w : CWord, decodeC w = false ↔ w = 0#1 := by decide
  exact h s.input.c

/-- A request is present when `stb = 1` and `cyc = 1` (R72). -/
theorem ports_bus_eq_some_iff (s : State) :
    (∃ q, s.ports.bus = some q) ↔ s.input.b.getLsbD 52 = true ∧ s.input.b.getLsbD 51 = true := by
  show (∃ q, decodeB s.input.b = some q) ↔ _
  simp [decodeB]

/-! ## A request outside IDLE -/

section busy
variable {s : State} (hs : s.block.seq ≠ .idle) (q : Option BusRequest) (p : Ports)
include hs

theorem nextSeq_withBus_of_busy : nextSeq (withBus q p) s = nextSeq p s := by
  cases h : s.block.seq with
  | idle => exact absurd h hs
  | pending => simp only [nextSeq, h]; rfl
  | ack => simp only [nextSeq, h]

theorem nextSeqAdr_of_busy : nextSeqAdr p s = s.block.seqAdr := by
  cases h : s.block.seq with
  | idle => exact absurd h hs
  | pending => simp only [nextSeqAdr, h]
  | ack => simp only [nextSeqAdr, h]

theorem nextXipReq_withBus_of_busy : nextXipReq (withBus q p) s = nextXipReq p s := by
  cases h : s.block.seq with
  | idle => exact absurd h hs
  | pending =>
    cases ha : s.block.xipReq with
    | none => simp only [nextXipReq, h, ha]
    | some a => simp only [nextXipReq, h, ha]; rfl
  | ack => simp only [nextXipReq, h]

/-- Outside `IDLE` the tick looks at no bus input (R95, R97, R99): the request enters `seq`, `seq_adr` and `xip_req` only. -/
theorem tick_withBus_of_busy : tick (withBus q p) s = tick p s := by
  have hrun : runBlock (withBus q p) s = runBlock p s := by
    simp only [runBlock, nextSeq_withBus_of_busy hs, nextSeqAdr_of_busy hs, nextXipReq_withBus_of_busy hs]
    rfl
  have hblock : nextBlock (withBus q p) s = nextBlock p s := by
    simp only [nextBlock, withBus_rst, hrun]
  simp only [tick, hblock]
  rfl

theorem tick_withoutBus_of_busy : tick (withoutBus p) s = tick p s := tick_withBus_of_busy hs none p

end busy

end Sys2Proof.Proofs
end

section
/-! PROOFS. The statements on the bus sequencer (40_bus_sequencer.md). -/

namespace Sys2Proof.Proofs

open Sys2Proof.Machine Sys2Proof.Safety

/-- Settles O21, from the acceptance rule on the ports and the two facts about the input bits. -/
theorem acceptanceCondition : Obligations.AcceptanceCondition := by
  intro s
  refine ⟨?_, fun hs => (tick_withoutBus_of_busy hs s.ports).symm⟩
  rw [accept_iff, ports_rst_eq_false_iff, ports_bus_eq_some_iff]

/-- Settles O29, from the law of `PENDING` without readiness. -/
theorem pendingWaits : Obligations.PendingWaits := by
  intro s hr hs hx
  have hbusy : s.block.seq ≠ .idle := by simp [hs]
  obtain ⟨hseq, hadr, hrdata⟩ := pending_waits hs hx
  refine ⟨tick s.ports s, step_eq_tick s, (tick_withoutBus_of_busy hbusy s.ports).symm, ?_⟩
  simp [nextBlock_run s hr, hs, hseq, hadr, hrdata]

/-- Settles O30: the outputs follow the state, and `IDLE` comes next with or without a reset in the tick. -/
theorem acknowledgeTick : Obligations.AcknowledgeTick := by
  intro s hs
  have hbusy : s.block.seq ≠ .idle := by simp [hs]
  refine ⟨tick s.ports s, step_eq_tick s, (tick_withoutBus_of_busy hbusy s.ports).symm, ?_⟩
  simp [hs, datR_ack hs, nextBlock_seq_of_ack s.ports hs]

/-- Settles O31: two acknowledges in a row would need `ACK` and `PENDING` in the same state. -/
theorem acknowledgeFollowsReadiness : Obligations.AcknowledgeFollowsReadiness := by
  intro s t u hst htu
  obtain rfl : tick s.ports s = t := by simpa using hst
  obtain rfl : tick (tick s.ports s).ports (tick s.ports s) = u := by simpa using htu
  have hack : ackOut (tick s.ports s) = true ↔ s.block.seq = .ack := by simp
  have hnext : ackOut (tick (tick s.ports s).ports (tick s.ports s)) = true ↔
      s.block.seq = .pending ∧ xipReady s.ports s = true := by simp [nextBlock_seq_ack_iff]
  refine ⟨hack, hnext, fun ⟨h₁, h₂⟩ => ?_⟩
  simpa [hack.1 h₁] using (hnext.1 h₂).1

/-- Settles O41: the reset state is `IDLE`, so the tick after it shows no acknowledge and accepts what it is shown. -/
theorem resetDropsTransaction : Obligations.ResetDropsTransaction := by
  intro s t hst
  obtain rfl : tick (withRst s.ports) s = t := by simpa [exec_reset] using hst
  have hblock : (tick (withRst s.ports) s).block = Block.atReset s.params :=
    nextBlock_rst (p := withRst s.ports) s rfl
  generalize tick (withRst s.ports) s = t at hblock
  have hidle : t.block.seq = .idle := by rw [hblock, atReset_seq]
  refine ⟨hidle, by rw [hblock, atReset_xipReq], hblock, fun u htu => ?_⟩
  obtain rfl : tick t.ports t = u := by simpa using htu
  refine ⟨by simp [hidle], fun q hr hb => ?_⟩
  obtain ⟨hseq, -, -, hreq⟩ := idle_some hr hidle hb
  simp [nextBlock_run t hr, hseq, hreq]

end Sys2Proof.Proofs
end

section
/-! PROOFS. The XIP engine's readiness pulse (42_xip_engine.md). -/

namespace Sys2Proof.Proofs

open Sys2Proof.Machine Sys2Proof.Safety

/-- Under R37 a read in progress is the pending transaction's. -/
theorem seq_pending_of_requestMatches {b : Block} {a : FlashAddress} (h : RequestMatches b) (ha : b.xipReq = some a) :
    b.seq = .pending := by
  simp only [RequestMatches, ha] at h
  exact h.1

/-- Readiness needs a read in progress (R131). -/
theorem xipReady_of_no_request {s : State} (p : Ports) (h : s.block.xipReq = none) : xipReady p s = false := by
  simp [xipReady, h]

/-- Readiness ends the read and fills the read-ahead state (R132, R139). -/
theorem nextBlock_of_ready {p : Ports} {s : State} (hm : RequestMatches s.block) (hx : xipReady p s = true) :
    (nextBlock p s).xipReq = none ∧ (nextBlock p s).xipRa = .held (Config.readAhead s.draws) := by
  obtain ⟨hr, ⟨a, ha⟩, -, -⟩ := (xipReady_iff p s).1 hx
  obtain ⟨-, -, -, hreq, hra⟩ := pending_ready (seq_pending_of_requestMatches hm ha) ha hx
  rw [nextBlock_run s hr]
  exact ⟨hreq, hra⟩

/-- Settles O28: readiness is R131's signal, and the read it ends is no longer there to make it 1 in the next tick. -/
theorem readinessIsPulse : Obligations.ReadinessIsPulse := by
  intro s t hm hst
  obtain rfl : tick s.ports s = t := by simpa using hst
  refine ⟨?_, fun hx => ?_⟩
  · rw [xipReady_iff, Option.ne_none_iff_exists']
  · obtain ⟨hreq, hra⟩ := nextBlock_of_ready hm hx
    exact ⟨hreq, by simp [hra], xipReady_of_no_request _ hreq⟩

end Sys2Proof.Proofs
end

section
/-! PROOFS. What lies in the flash (47_flash_image_format.md): the padding the header and the images share, the header's
records, and the two image operations. -/

namespace Sys2Proof.Proofs

open Sys2Proof.Machine

/-- A list filled up to length `n` with `d` reads, below `n`, as the list with default `d`. -/
theorem getElem?_append_replicate_getD {α : Type} (l : List α) (d : α) {n k : Nat} (h : k < n) :
    (l ++ List.replicate (n - l.length) d)[k]? = some (l.getD k d) := by
  by_cases hk : k < l.length
  · simp [List.getElem?_append_left hk, hk]
  · have hpad : k - l.length < n - l.length := by omega
    simp [List.getElem?_append_right (not_lt.1 hk), hpad, hk]

/-! ## The multiboot header -/

/-- R191: 4 + 3 + 5 + 3 + 2 + 15 bytes, whatever the offset. -/
@[simp] theorem bootRecord_length (off : BootOffset) : (bootRecord off).length = 32 := rfl

section slots
variable (off : BootOffset) {offs : List BootOffset}

theorem bootSlots_of_lt (h : offs.length < 5) :
    bootSlots (off :: offs) = .ok (off :: offs ++ List.replicate (5 - (off :: offs).length) off) :=
  if_neg (by simp only [List.length_cons]; omega)

theorem bootSlots_of_le (h : 5 ≤ offs.length) : bootSlots (off :: offs) = .error .tooManyOffsets :=
  if_pos (by simp only [List.length_cons]; omega)

/-- One to five offsets: the records of the offsets, filled up with the first offset's (R192, R193). -/
theorem encodeBootHeaders_of_lt (h : offs.length < 5) :
    encodeBootHeaders (off :: offs) =
      .ok ((off :: offs ++ List.replicate (5 - (off :: offs).length) off).map bootRecord) := by
  rw [encodeBootHeaders, bootSlots_of_lt off h]

theorem encodeBootHeaders_of_le (h : 5 ≤ offs.length) :
    encodeBootHeaders (off :: offs) = .error .tooManyOffsets := by
  rw [encodeBootHeaders, bootSlots_of_le off h]

end slots

/-- Settles O57: the records are those of the slots, and the slots read as the offsets with the first one by default. -/
theorem bootHeadersShape : Obligations.BootHeadersShape := by
  intro off offs
  refine ⟨fun h => ⟨_, encodeBootHeaders_of_lt off h, ?_, ?_, fun k hk => ?_⟩, encodeBootHeaders_of_le off⟩
  · simp only [List.length_map, List.length_append, List.length_replicate, List.length_cons]
    omega
  · exact List.forall_mem_map.2 fun slot _ => bootRecord_length slot
  · rw [List.getElem?_map, getElem?_append_replicate_getD _ off hk, Option.map_some]

/-! ## Image composition -/

theorem mergeImages_length (primary secondary : List Byte) :
    (mergeImages primary secondary).length = max primary.length secondary.length := by
  rw [mergeImages, List.length_append, List.length_drop]
  omega

/-- The primary's bytes first, then the secondary's at their own places (R194). -/
theorem mergeImages_getElem? (primary secondary : List Byte) (k : Nat) :
    (mergeImages primary secondary)[k]? = if k < primary.length then primary[k]? else secondary[k]? := by
  rw [mergeImages, List.getElem?_append, List.getElem?_drop]
  split
  case isTrue => rfl
  case isFalse h => rw [Nat.add_sub_cancel' (not_lt.1 h)]

theorem padImage_length (src : List Byte) (targetLength : Nat) : (padImage src targetLength).length = targetLength := by
  rw [padImage, List.length_append, List.length_take, List.length_replicate]
  omega

/-- The truncated image, filled up with zeros: truncation takes no byte below the target length (R195). -/
theorem padImage_getElem? (src : List Byte) {targetLength k : Nat} (h : k < targetLength) :
    (padImage src targetLength)[k]? = some (src.getD k 0x00#8) := by
  have hfill : targetLength - src.length = targetLength - (src.take targetLength).length := by
    rw [List.length_take]; omega
  rw [padImage, hfill, getElem?_append_replicate_getD _ _ h]
  simp [h]

/-- Settles O58, by the length and the bytes of the two operations. -/
theorem mergeAndPad : Obligations.MergeAndPad :=
  ⟨fun primary secondary => ⟨mergeImages_length primary secondary, mergeImages_getElem? primary secondary⟩,
    fun src targetLength => ⟨padImage_length src targetLength, fun _ => padImage_getElem? src⟩⟩

end Sys2Proof.Proofs
end

section
/-! PROOFS. Port words to operations and back (30_encoding.md): the fields of a packed word, and the match and mask of
opcode_table.json as a condition on a word's top field. -/

namespace Sys2Proof.Proofs

/-! ## The fields of a packed word -/

/-- The middle one of three fields. -/
theorem extractLsb'_append_middle {k m n : Nat} (x : BitVec k) (y : BitVec m) (z : BitVec n) :
    (x ++ y ++ z).extractLsb' n m = y := by
  rw [BitVec.extractLsb'_append_eq_of_le le_rfl, Nat.sub_self, BitVec.extractLsb'_append_eq_right]

section pack
variable (o : RegOffsets) (we : Bool) (reg : RegName) (adr : WordAdr) (dat : Byte) (datW : XipWord)

theorem packR_off : (packR o we reg dat).extractLsb' 8 2 = offsetOfReg o reg := extractLsb'_append_middle _ _ _

theorem packR_dat : (packR o we reg dat).extractLsb' 0 8 = dat := BitVec.extractLsb'_append_eq_right

theorem packR_bits : (packR o we reg dat).getLsbD 11 = true ∧ (packR o we reg dat).getLsbD 10 = we := by
  simp only [packR, BitVec.getLsbD_append]
  simp

theorem packB_adr : (packB we adr datW).extractLsb' 32 18 = adr := extractLsb'_append_middle _ _ _

theorem packB_datW : (packB we adr datW).extractLsb' 0 32 = datW := BitVec.extractLsb'_append_eq_right

theorem packB_bits :
    (packB we adr datW).getLsbD 52 = true ∧ (packB we adr datW).getLsbD 51 = true ∧
      (packB we adr datW).getLsbD 50 = we := by
  simp only [packB, BitVec.getLsbD_append]
  simp

/-- The decoder reads every access back from its packed word (R71). -/
theorem decodeR_packR (h : o.ok = true) :
    decodeR o (packR o we reg dat) = if we then .write reg dat else .read reg := by
  obtain ⟨hen, hwe⟩ := packR_bits o we reg dat
  simp only [decodeR, hen, hwe, packR_off, packR_dat, regOfOffset_offsetOfReg h, if_true]

/-- The decoder reads every request back from its packed word (R72). -/
theorem decodeB_packB : decodeB (packB we adr datW) = some { we := we, adr := adr, datW := datW } := by
  obtain ⟨hstb, hcyc, hwe⟩ := packB_bits we adr datW
  simp only [decodeB, hstb, hcyc, hwe, packB_adr, packB_datW, Bool.and_self, if_true]

end pack

/-! ## Decoding and encoding -/

theorem decode_packB {adr : Nat} (h : adr < regionWords) (o : RegOffsets) (we : Bool) (datW : XipWord) :
    decode o (.b (packB we (BitVec.ofNat 18 adr) datW)) = .ok (if we then .busWr adr datW else .busRd adr) := by
  have hadr : (BitVec.ofNat 18 adr).toNat = adr := (BitVec.toNat_ofNat adr 18).trans (Nat.mod_eq_of_lt h)
  simp only [decode, decodeB_packB, instrOfRequest, hadr]

/-- The law of the ill-formed operations (R85), for all of them. -/
theorem beyondRegion (i : Instr) : Laws.BeyondRegion.Statement i := by
  cases i with
  | busRd adr => exact Laws.BeyondRegion.busRd adr
  | busWr adr datW => exact Laws.BeyondRegion.busWr adr datW
  | _ => exact fun h => nomatch h

/-- Settles O1: the fields of a packed word read back, and an ill-formed operation is a request beyond the region. -/
theorem decodeEncodeAgree : Obligations.DecodeEncodeAgree := by
  intro o i ho
  refine ⟨fun hi => ?_, fun hi => ?_⟩
  · cases i with
    | busRd adr =>
      have hadr := (wellFormed_busRd adr).1 hi
      exact ⟨_, encodeB_eq hadr false 0#32, decode_packB hadr o false 0#32⟩
    | busWr adr datW =>
      have hadr := (wellFormed_busWr adr datW).1 hi
      exact ⟨_, encodeB_eq hadr true datW, decode_packB hadr o true datW⟩
    | reset => exact ⟨_, rfl, rfl⟩
    | nop => exact ⟨_, rfl, rfl⟩
    | _ => exact ⟨_, rfl, by rw [decode, decodeR_packR _ _ _ _ ho]; rfl⟩
  · obtain ⟨adr, hadr, rfl | ⟨datW, rfl⟩⟩ := beyondRegion i hi
    · exact encodeB_beyond hadr false 0#32
    · exact encodeB_beyond hadr true datW

/-- Settles O2: an operation of the register port or of format C carries no address, and the bus port's has 18 bits. -/
theorem decodedOperationsWellFormed : Obligations.DecodedOperationsWellFormed := by
  intro o w i h
  cases w with
  | r w =>
    rcases instrOfAccess_ok h with ⟨-, rfl⟩ | ⟨dat, -, rfl⟩ | ⟨-, rfl⟩ | ⟨dat, -, rfl⟩ | ⟨-, rfl⟩ |
      ⟨dat, -, rfl⟩ <;> rfl
  | b w =>
    cases hq : decodeB w with
    | none => simp [decode, hq, instrOfRequest] at h
    | some q =>
      obtain rfl : (if q.we then .busWr q.adr.toNat q.datW else .busRd q.adr.toNat) = i := by
        simpa [decode, hq, instrOfRequest] using h
      cases q.we with
      | false => exact (wellFormed_busRd _).2 (toNat_lt_regionWords q.adr)
      | true => exact (wellFormed_busWr _ _).2 (toNat_lt_regionWords q.adr)
  | c w =>
    obtain rfl : (if decodeC w then Instr.reset else .nop) = i := by simpa [decode] using h
    cases decodeC w <;> rfl

/-! ## The match and mask of opcode_table.json -/

/-- A mask and a match with zeros below the top field are a condition on that field alone. -/
theorem and_append_zero_eq_iff {k n : Nat} (w : BitVec (k + n)) (m c : BitVec k) :
    w &&& (m ++ 0#n) = c ++ 0#n ↔ w.extractLsb' n k &&& m = c := by
  conv_lhs => rw [← BitVec.extractLsb'_append_extractLsb' (x := w)]
  rw [BitVec.and_append, BitVec.and_zero, BitVec.append_left_inj]

/-- The register access an operation of format R stands for (R80). -/
def accessOf : Instr → Option RegAccess
  | .rdRdata => some (.read .rdata)
  | .wrRdata dat => some (.write .rdata dat)
  | .rdMode => some (.read .mode)
  | .wrMode dat => some (.write .mode dat)
  | .rdWdata => some (.read .wdata)
  | .wrWdata dat => some (.write .wdata dat)
  | _ => none

theorem instrOfAccess_eq_ok_iff (a : RegAccess) (i : Instr) : instrOfAccess a = .ok i ↔ accessOf i = some a := by
  constructor
  · intro h
    rcases instrOfAccess_ok h with ⟨rfl, rfl⟩ | ⟨dat, rfl, rfl⟩ | ⟨rfl, rfl⟩ | ⟨dat, rfl, rfl⟩ | ⟨rfl, rfl⟩ |
      ⟨dat, rfl, rfl⟩ <;> rfl
  · intro h
    cases i <;> simp only [accessOf, Option.some.injEq, reduceCtorEq] at h <;> subst h <;> rfl

/-- The field of a format R word above `dat`: `en`, `we` and `off` (R71). -/
def topR (w : RWord) : BitVec 4 := w.extractLsb' 8 4

/-- The field of a format B word above `adr`: `stb`, `cyc` and `we` (R72). -/
def topB (w : BWord) : BitVec 3 := w.extractLsb' 50 3

theorem decodeR_eq_topR (o : RegOffsets) (w : RWord) :
    decodeR o w =
      if (topR w).getLsbD 3 then
        if (topR w).getLsbD 2 then .write (regOfOffset o ((topR w).extractLsb' 0 2)) (w.extractLsb' 0 8)
        else .read (regOfOffset o ((topR w).extractLsb' 0 2))
      else .idle := by
  have hoff : (topR w).extractLsb' 0 2 = w.extractLsb' 8 2 := by
    ext k hk
    simp [topR, show k < 4 by omega]
  have hen : (topR w).getLsbD 3 = w.getLsbD 11 := by simp [topR]
  have hwe : (topR w).getLsbD 2 = w.getLsbD 10 := by simp [topR]
  rw [decodeR, hoff, hen, hwe]

theorem decodeB_eq_topB (w : BWord) :
    decodeB w =
      if (topB w).getLsbD 2 && (topB w).getLsbD 1 then
        some { we := (topB w).getLsbD 0, adr := w.extractLsb' 32 18, datW := w.extractLsb' 0 32 }
      else none := by
  have hstb : (topB w).getLsbD 2 = w.getLsbD 52 := by simp [topB]
  have hcyc : (topB w).getLsbD 1 = w.getLsbD 51 := by simp [topB]
  have hwe : (topB w).getLsbD 0 = w.getLsbD 50 := by simp [topB]
  rw [decodeB, hstb, hcyc, hwe]

theorem and_eq_iff_topR (w : RWord) (m c : BitVec 4) : w &&& (m ++ 0#8) = c ++ 0#8 ↔ topR w &&& m = c :=
  and_append_zero_eq_iff (k := 4) (n := 8) w m c

theorem and_eq_iff_topB (w : BWord) (m c : BitVec 3) : w &&& (m ++ 0#50) = c ++ 0#50 ↔ topB w &&& m = c :=
  and_append_zero_eq_iff (k := 3) (n := 50) w m c

/-- The top field of an access to a register, read or write by `we` (R71). -/
def selects (o : RegOffsets) (we : Bool) (r : RegName) (top : BitVec 4) : Bool :=
  top.getLsbD 3 && (top.getLsbD 2 == we) && decide (regOfOffset o (top.extractLsb' 0 2) = r)

section rows
variable {o : RegOffsets} {w : RWord}

theorem decode_read_iff {i : Instr} {r : RegName} (hi : accessOf i = some (.read r)) :
    decode o (.r w) = .ok i ↔ selects o false r (topR w) = true := by
  rw [decode, instrOfAccess_eq_ok_iff, hi, decodeR_eq_topR, selects]
  generalize topR w = t
  cases hen : t.getLsbD 3 <;> cases hwe : t.getLsbD 2 <;> simp [eq_comm]

theorem decode_write_iff {i : Instr} {r : RegName} (hi : accessOf i = some (.write r (w.extractLsb' 0 8))) :
    decode o (.r w) = .ok i ↔ selects o true r (topR w) = true := by
  rw [decode, instrOfAccess_eq_ok_iff, hi, decodeR_eq_topR, selects]
  generalize topR w = t
  cases hen : t.getLsbD 3 <;> cases hwe : t.getLsbD 2 <;> simp [eq_comm]

theorem decode_portIdle_iff : decode o (.r w) = .error .portIdle ↔ (topR w).getLsbD 3 = false := by
  rw [decode, decodeR_eq_topR]
  generalize topR w = t
  cases hen : t.getLsbD 3 <;> cases hwe : t.getLsbD 2 <;> cases hr : regOfOffset o (t.extractLsb' 0 2) <;>
    simp [instrOfAccess]

theorem decode_unmappedOffset_iff :
    decode o (.r w) = .error .unmappedOffset ↔
      selects o false .unmapped (topR w) = true ∨ selects o true .unmapped (topR w) = true := by
  rw [decode, decodeR_eq_topR, selects, selects]
  generalize topR w = t
  cases hen : t.getLsbD 3 <;> cases hwe : t.getLsbD 2 <;> cases hr : regOfOffset o (t.extractLsb' 0 2) <;>
    simp [instrOfAccess]

end rows

/-- The table's rows with the default offsets, as conditions on the top field. -/
theorem table_rows (t : BitVec 4) :
    (selects Config.regOffsets false .rdata t = true ↔ t &&& 0xF#4 = 0x8#4) ∧
    (selects Config.regOffsets true .rdata t = true ↔ t &&& 0xF#4 = 0xC#4) ∧
    (selects Config.regOffsets false .mode t = true ↔ t &&& 0xF#4 = 0x9#4) ∧
    (selects Config.regOffsets true .mode t = true ↔ t &&& 0xF#4 = 0xD#4) ∧
    (selects Config.regOffsets false .wdata t = true ↔ t &&& 0xF#4 = 0xA#4) ∧
    (selects Config.regOffsets true .wdata t = true ↔ t &&& 0xF#4 = 0xE#4) ∧
    (t.getLsbD 3 = false ↔ t &&& 0x8#4 = 0x0#4) ∧
    (selects Config.regOffsets false .unmapped t = true ∨ selects Config.regOffsets true .unmapped t = true ↔
      t &&& 0xB#4 = 0xB#4) := by
  revert t
  decide

/-- Settles O4: each row's condition on `en`, `we` and `off` is the table's on the top field. -/
theorem registerWordsFollowTable : Obligations.RegisterWordsFollowTable := by
  intro w
  obtain ⟨h₁, h₂, h₃, h₄, h₅, h₆, h₇, h₈⟩ := table_rows (topR w)
  have hmatch := fun m c => (and_eq_iff_topR w m c).symm
  exact ⟨(decode_read_iff rfl).trans (h₁.trans (hmatch _ _)), (decode_write_iff rfl).trans (h₂.trans (hmatch _ _)),
    (decode_read_iff rfl).trans (h₃.trans (hmatch _ _)), (decode_write_iff rfl).trans (h₄.trans (hmatch _ _)),
    (decode_read_iff rfl).trans (h₅.trans (hmatch _ _)), (decode_write_iff rfl).trans (h₆.trans (hmatch _ _)),
    decode_portIdle_iff.trans (h₇.trans (hmatch _ _)), decode_unmappedOffset_iff.trans (h₈.trans (hmatch _ _))⟩

/-- A format B word is a read, a write or no request, by its top field (R72, R81). -/
theorem decode_b_cases (o : RegOffsets) (w : BWord) :
    (topB w = 0b110#3 ∧ decode o (.b w) = .ok (.busRd (w.extractLsb' 32 18).toNat)) ∨
    (topB w = 0b111#3 ∧ decode o (.b w) = .ok (.busWr (w.extractLsb' 32 18).toNat (w.extractLsb' 0 32))) ∨
    (topB w &&& 0b110#3 ≠ 0b110#3 ∧ decode o (.b w) = .error .noRequest) := by
  have hcases : ∀ t : BitVec 3,
      t = 0b110#3 ∨ t = 0b111#3 ∨ (t &&& 0b110#3 ≠ 0b110#3 ∧ (t.getLsbD 2 && t.getLsbD 1) = false) := by decide
  rw [decode, decodeB_eq_topB]
  rcases hcases (topB w) with h | h | ⟨h, hbits⟩
  · exact .inl ⟨h, by rw [h]; rfl⟩
  · exact .inr (.inl ⟨h, by rw [h]; rfl⟩)
  · exact .inr (.inr ⟨h, by rw [hbits]; rfl⟩)

/-- Settles O5: the three kinds of word exclude each other, and so do the table's conditions on the top field. -/
theorem busWordsFollowTable : Obligations.BusWordsFollowTable := by
  intro o w
  have hread : w &&& 0x1C000000000000#53 = 0x18000000000000#53 ↔ topB w &&& 0b111#3 = 0b110#3 :=
    and_eq_iff_topB w 0b111#3 0b110#3
  have hwrite : w &&& 0x1C000000000000#53 = 0x1C000000000000#53 ↔ topB w &&& 0b111#3 = 0b111#3 :=
    and_eq_iff_topB w 0b111#3 0b111#3
  have hreq : w &&& 0x18000000000000#53 = 0x18000000000000#53 ↔ topB w &&& 0b110#3 = 0b110#3 :=
    and_eq_iff_topB w 0b110#3 0b110#3
  have hnone : ∀ t : BitVec 3, t &&& 0b110#3 ≠ 0b110#3 → t &&& 0b111#3 ≠ 0b110#3 ∧ t &&& 0b111#3 ≠ 0b111#3 := by
    decide
  rw [hread, hwrite, ne_eq, hreq]
  rcases decode_b_cases o w with ⟨h, hd⟩ | ⟨h, hd⟩ | ⟨h, hd⟩
  · simp [hd, h]
  · simp [hd, h]
  · simp [hd, h, hnone _ h]

/-- Settles O3, by decoding the ten literals. -/
theorem specWordsDecode : Obligations.SpecWordsDecode := by
  unfold Obligations.SpecWordsDecode
  decide

end Sys2Proof.Proofs
end

section
/-! PROOFS. Addresses and byte lanes (30_encoding.md R78; 20_memory.md R46 to R51). -/

namespace Sys2Proof.Proofs

open Sys2Proof.Machine Sys2Proof.Safety

/-- The two zero bits below the word address are a factor of 4 (D1). -/
theorem flashAddress_toNat (adr : WordAdr) : (flashAddress adr).toNat = 4 * adr.toNat := by
  show (0#4 ++ adr ++ 0#2).toNat = _
  rw [BitVec.toNat_append, BitVec.toNat_append]
  simp [Nat.shiftLeft_eq, Nat.mul_comm]

theorem addressInRegion_flashAddress (adr : WordAdr) : AddressInRegion (flashAddress adr) := by
  have hlt : adr.toNat < 2 ^ 18 := adr.isLt
  simp only [AddressInRegion, flashAddress_toNat, Config.spiFlashSize]
  omega

/-- Settles O54, from the two facts about the appended zero bits. -/
theorem flashAddressAssembly : Obligations.FlashAddressAssembly :=
  fun adr => ⟨flashAddress_toNat adr, addressInRegion_flashAddress adr⟩

/-- Settles O55: each lane is one of the appended bytes. -/
theorem byteLanes : Obligations.ByteLanes := by
  intro o b0 b1 b2 b3
  have hlanes : ∀ c0 c1 c2 c3 : Byte,
      (c3 ++ c2 ++ c1 ++ c0).extractLsb' 0 8 = c0 ∧ (c3 ++ c2 ++ c1 ++ c0).extractLsb' 8 8 = c1 ∧
      (c3 ++ c2 ++ c1 ++ c0).extractLsb' 16 8 = c2 ∧ (c3 ++ c2 ++ c1 ++ c0).extractLsb' 24 8 = c3 := by
    intro c0 c1 c2 c3
    refine ⟨BitVec.extractLsb'_append_eq_right, extractLsb'_append_middle _ _ _, ?_, ?_⟩
    · rw [BitVec.extractLsb'_append_eq_of_le (by decide)]
      exact extractLsb'_append_middle _ _ _
    · rw [BitVec.extractLsb'_append_eq_of_le (by decide), BitVec.extractLsb'_append_eq_of_le (by decide)]
      exact BitVec.extractLsb'_append_eq_left
  cases o with
  | little => exact hlanes b0 b1 b2 b3
  | big =>
    obtain ⟨h3, h2, h1, h0⟩ := hlanes b3 b2 b1 b0
    exact ⟨h0, h1, h2, h3⟩

/-! ## The platform's decoder -/

section system
variable (p : Params)

theorem systemWordAdr_eq_none_iff (b : Nat) :
    systemWordAdr p b = none ↔ b < p.flashBase ∨ p.flashBase + 0x100000 ≤ b := by
  unfold systemWordAdr Config.spiFlashSize
  split
  case isTrue h => simp only [reduceCtorEq, false_iff]; omega
  case isFalse h => simp only [true_iff]; omega

/-- The FlashAddress of a system address is its offset in the region, rounded down to a word (R47). -/
theorem flashAddress_systemWordAdr {b : Nat} {adr : WordAdr} (h : systemWordAdr p b = some adr) :
    (flashAddress adr).toNat = (b - p.flashBase) / 4 * 4 := by
  unfold systemWordAdr Config.spiFlashSize at h
  split at h
  case isFalse => cases h
  case isTrue hb =>
    obtain rfl : BitVec.ofNat 18 ((b - p.flashBase) / 4) = adr := Option.some.inj h
    rw [flashAddress_toNat, BitVec.toNat_ofNat, Nat.mod_eq_of_lt (by omega), Nat.mul_comm]

/-- Each register is reached at its own offset (R46). -/
theorem systemReg_offsetOfReg (h : p.regOffsets.ok = true) (r : RegName) :
    systemReg p (p.regBase + (offsetOfReg p.regOffsets r).toNat) = some r := by
  have hlt : (offsetOfReg p.regOffsets r).toNat < 4 := (offsetOfReg p.regOffsets r).isLt
  simp [systemReg, hlt, regOfOffset_offsetOfReg h]

theorem systemReg_of_le {k : Nat} (h : 4 ≤ k) : systemReg p (p.regBase + k) = some .unmapped := by
  simp [systemReg, Nat.not_lt.2 h]

theorem systemReg_eq_none_iff (a : Nat) : systemReg p a = none ↔ a < p.regBase := by
  simp [systemReg]

end system

/-- Settles O56, from the equation of each kind of address. -/
theorem systemAddressDecoding : Obligations.SystemAddressDecoding := by
  intro p hp
  have hoff : p.regOffsets.ok = true := by
    simp only [Params.ok, Bool.and_eq_true] at hp
    exact hp.2
  exact ⟨systemWordAdr_eq_none_iff p, fun _ _ => flashAddress_systemWordAdr p, systemReg_offsetOfReg p hoff,
    fun _ => systemReg_of_le p, systemReg_eq_none_iff p⟩

end Sys2Proof.Proofs
end

section
/-! PROOFS. What each operation runs (30_encoding.md R70, R86, R87): the tick of its own port's access with the other
ports as the input gives them, and the step that presents it. -/

namespace Sys2Proof.Proofs

open Sys2Proof.Machine Sys2Proof.Safety

/-! ## The step and the operation presented -/

/-- Settles O8, by the equation of the step. -/
theorem stepIsOneTick : Obligations.StepIsOneTick := step_eq_tick

/-- With all three ports idle the step is NOP (R176). -/
theorem step_of_idlePorts {s : State} (h : s.ports = idlePorts) : step s = exec .nop s := by
  rw [step_eq_tick, exec_nop, h]

theorem step_of_rst {s : State} (h : s.ports.rst = true) : step s = exec .reset s := by
  rw [step_eq_tick, exec_reset, withRst_of_rst h]

theorem step_of_access {s : State} {i : Instr} (h : instrOfAccess s.ports.reg = .ok i) : step s = exec i s := by
  rw [step_eq_tick, exec_of_access h]

theorem step_of_request {s : State} {i : Instr} (h : instrOfRequest s.ports.bus = .ok i) : step s = exec i s := by
  rw [step_eq_tick, exec_of_request h]

theorem decodeC_of_decode_reset {o : RegOffsets} {w : CWord} (h : decode o (.c w) = .ok .reset) :
    decodeC w = true := by
  cases hw : decodeC w <;> simp [decode, hw] at h ⊢

theorem decodeC_of_decode_nop {o : RegOffsets} {w : CWord} (h : decode o (.c w) = .ok .nop) :
    decodeC w = false := by
  cases hw : decodeC w <;> simp [decode, hw] at h ⊢

theorem instrOfRequest_noRequest {q : Option BusRequest} {e : DecodeError} (h : instrOfRequest q = .error e) :
    q = none := by
  cases q with
  | none => rfl
  | some q => cases h

/-- Settles O6: each port's word decodes to what the step dispatches on. -/
theorem stepRunsPresentedOperation : Obligations.StepRunsPresentedOperation := by
  intro s i
  refine ⟨fun hc => step_of_rst (decodeC_of_decode_reset hc), fun _ hr => step_of_access hr,
    fun _ hb => step_of_request hb, fun hc hr hb => step_of_idlePorts ?_⟩
  have hreg : s.ports.reg = .idle := by
    rcases instrOfAccess_error hr with ⟨h, -⟩ | ⟨-, h⟩ | ⟨_, -, h⟩
    · exact h
    · cases h
    · cases h
  have hbus : s.ports.bus = none := instrOfRequest_noRequest hb
  have hrst : s.ports.rst = false := decodeC_of_decode_nop hc
  show Ports.mk s.ports.reg s.ports.bus s.ports.rst = idlePorts
  rw [hreg, hbus, hrst]
  rfl

theorem ports_withPortWord_c (s : State) (w : CWord) :
    (s.withPortWord (.c w)).ports = { idlePorts with rst := decodeC w } := by
  simp [State.ports, TickInput.ports, TickInput.withWord, decodeR, decodeB, idlePorts]

/-- A word placed on its port is what the step runs: the other two ports are idle (R86). -/
theorem step_withPortWord {s : State} {w : PortWord} {i : Instr} (h : decode s.params.regOffsets w = .ok i) :
    step (s.withPortWord w) = exec i (s.withPortWord w) := by
  cases w with
  | r w => exact step_of_access h
  | b w => exact step_of_request h
  | c w =>
    cases hc : decodeC w with
    | true =>
      obtain rfl : Instr.reset = i := by simpa [decode, hc] using h
      exact step_of_rst hc
    | false =>
      obtain rfl : Instr.nop = i := by simpa [decode, hc] using h
      exact step_of_idlePorts (by rw [ports_withPortWord_c, hc]; rfl)

/-- Settles O7: a table word is the port word of its width. -/
theorem stepRunsPlacedWord : Obligations.StepRunsPlacedWord := by
  intro s nbits w i ho h
  cases hw : portWordOf nbits w with
  | none => simp [decodeTableWord, hw] at h
  | some pw =>
    cases hd : decode Config.regOffsets pw with
    | error e => simp [decodeTableWord, hw, hd] at h
    | ok j =>
      obtain rfl : j = i := by simpa [decodeTableWord, hw, hd] using h
      rw [State.withFetchWord, hw]
      exact step_withPortWord (ho.symm ▸ hd)

/-! ## What the tick of an operation's answer carries on its ports -/

theorem exec_of_accessOf {i : Instr} {a : RegAccess} (h : accessOf i = some a) (s : State) :
    exec i s = .next (tick (withReg a s.ports) s) := by
  cases i <;> simp only [accessOf, Option.some.injEq, reduceCtorEq] at h <;> subst h <;> rfl

theorem exec_busRd {adr : Nat} (h : adr < regionWords) (s : State) :
    exec (.busRd adr) s =
      .next (tick (withBus (some { we := false, adr := BitVec.ofNat 18 adr, datW := 0#32 }) s.ports) s) :=
  busTick_eq h false 0#32 s

/-- Settles O25: a request's `we` and `dat_w` reach no state (R101). -/
theorem busWriteActsAsRead : Obligations.BusWriteActsAsRead := by
  intro s adr datW
  show busTick true adr datW s = busTick false adr 0#32 s
  rcases Nat.lt_or_ge adr regionWords with h | h
  · rw [busTick_eq h, busTick_eq h]
    exact congrArg Host.Outcome.next (tick_bus_congr _ _ _ _ rfl s)
  · rw [busTick_beyond h, busTick_beyond h]

/-- Settles O26: the refusal of R85, at both operations. -/
theorem beyondRegionRefused : Obligations.BeyondRegionRefused :=
  fun s _ datW h => ⟨busTick_beyond h false 0#32 s, busTick_beyond h true datW s⟩

/-- A bus operation that answers a next state ran the tick of a request for its address (R85, R101). -/
theorem exec_bus_next {s t : State} {adr : Nat} {datW : XipWord}
    (h : exec (.busRd adr) s = .next t ∨ exec (.busWr adr datW) s = .next t) :
    ∃ q, t = tick (withBus (some q) s.ports) s := by
  rw [busWriteActsAsRead, or_self] at h
  rcases Nat.lt_or_ge adr regionWords with hadr | hadr
  · exact ⟨_, Host.Outcome.next.inj (h.symm.trans (exec_busRd hadr s))⟩
  · cases h.symm.trans (busTick_beyond hadr false 0#32 s)

/-- The ports in the tick of an operation: its own port carries it, the others what the input gives (R70). -/
def CarriesOperation (i : Instr) (s : State) (p : Ports) : Prop :=
  (∃ a, accessOf i = some a ∧ p = withReg a s.ports) ∨ (∃ q, p = withBus (some q) s.ports) ∨
  (i = .reset ∧ p = withRst s.ports) ∨ (i = .nop ∧ p = idlePorts)

/-- `exec_next` with the ports of the tick. -/
theorem exec_next_carries {i : Instr} {s t : State} (h : exec i s = .next t) :
    ∃ p, t = tick p s ∧ CarriesOperation i s p := by
  cases i with
  | busRd adr =>
    obtain ⟨q, hq⟩ := exec_bus_next (datW := 0#32) (.inl h)
    exact ⟨_, hq, .inr (.inl ⟨q, rfl⟩)⟩
  | busWr adr datW =>
    obtain ⟨q, hq⟩ := exec_bus_next (.inr h)
    exact ⟨_, hq, .inr (.inl ⟨q, rfl⟩)⟩
  | reset => exact ⟨_, (Host.Outcome.next.inj h).symm, .inr (.inr (.inl ⟨rfl, rfl⟩))⟩
  | nop => exact ⟨_, (Host.Outcome.next.inj h).symm, .inr (.inr (.inr ⟨rfl, rfl⟩))⟩
  | _ => exact ⟨_, (Host.Outcome.next.inj h).symm, .inl ⟨_, rfl, rfl⟩⟩

end Sys2Proof.Proofs
end

section
/-! PROOFS. The flash and the registers in a tick (41_mode_controller.md, 43_bitbang_bridge.md): what a register access
does and leaves unchanged. -/

namespace Sys2Proof.Proofs

open Sys2Proof.Machine Sys2Proof.Safety

/-! ## The flash -/

/-- The flash in XIP mode is unchanged (R9, R58). -/
theorem nextFlash_of_xip {s : State} (h : s.block.modeBb = false) : nextFlash s = s.flash := by
  simp [nextFlash, h]

theorem nextFlash_of_bitbang {s : State} (h : s.block.modeBb = true) :
    nextFlash s = { cells := [], era := s.flash.era + 1 } := by
  simp [nextFlash, h]

theorem flashRead_tick_of_xip {s : State} (h : s.block.modeBb = false) (p : Ports) (a : FlashAddress) :
    flashRead (tick p s).flash a = flashRead s.flash a := by
  rw [tick_flash, nextFlash_of_xip h]

/-- Settles O48: an operation's answer is the state after one tick. -/
theorem flashUnchangedInXipMode : Obligations.FlashUnchangedInXipMode := by
  intro i s t h hb a
  obtain ⟨p, rfl⟩ := exec_next h
  exact flashRead_tick_of_xip hb p a

/-- Settles O49: no byte is listed in the new era. -/
theorem flashArbitraryAfterBitbang : Obligations.FlashArbitraryAfterBitbang := by
  intro i s t h hb a
  obtain ⟨p, rfl⟩ := exec_next h
  rw [tick_flash, nextFlash_of_bitbang hb]
  rfl

/-! ## Register accesses -/

/-- A register access that writes neither `mode` nor `wdata` leaves no trace in the block (R57, R151, R83). -/
theorem nextBlock_withReg_of_no_write {a : RegAccess} (hm : ∀ dat, a ≠ .write .mode dat)
    (hw : ∀ dat, a ≠ .write .wdata dat) (p : Ports) (s : State) :
    nextBlock (withReg a p) s = nextBlock (withoutReg p) s := by
  rcases a with _ | r | ⟨_ | _ | _ | _, dat⟩
  · rfl
  · rfl
  · rfl
  · exact absurd rfl (hm dat)
  · exact absurd rfl (hw dat)
  · rfl

/-- A write to neither register leaves no trace at all: it has no value to show either. -/
theorem tick_withReg_of_ignored_write {r : RegName} (hm : r ≠ .mode) (hw : r ≠ .wdata) (dat : Byte) (p : Ports)
    (s : State) : tick (withReg (.write r dat) p) s = tick (withoutReg p) s := by
  have hblock : nextBlock (withReg (.write r dat) p) s = nextBlock (withoutReg p) s :=
    nextBlock_withReg_of_no_write (by simp [hm]) (by simp [hw]) p s
  cases r with
  | mode => exact absurd rfl hm
  | wdata => exact absurd rfl hw
  | _ => simp only [tick, hblock]; rfl

@[simp] theorem readOut_tick_read (r : RegName) (p : Ports) (s : State) :
    readOut (tick (withReg (.read r) p) s) = some (regRead s r) := rfl

/-- The port's own access, written as `withReg` has it. -/
theorem withReg_of_reg {p : Ports} {a : RegAccess} (h : p.reg = a) : withReg a p = p := by
  subst h
  rfl

/-- Settles O9: the unmapped offset is written as an ignored register and read as a free value. -/
theorem unmappedAccessReachesNothing : Obligations.UnmappedAccessReachesNothing := by
  intro s
  refine ⟨fun dat h => ⟨_, step_eq_tick s, ?_⟩, fun h => ⟨_, step_eq_tick s, ?_⟩⟩ <;> rw [← withReg_of_reg h]
  · exact tick_withReg_of_ignored_write (by decide) (by decide) dat s.ports s
  · exact ⟨nextBlock_withReg_of_no_write (by simp) (by simp) s.ports s, rfl⟩

/-- Settles O15: `rdata` is written as an ignored register. -/
theorem writeRdataIgnored : Obligations.WriteRdataIgnored := fun s dat =>
  congrArg Host.Outcome.next (tick_withReg_of_ignored_write (r := .rdata) (by decide) (by decide) dat s.ports s)

/-- Settles O14: the reads are accesses that write nothing, and no other access is on the port. -/
theorem registerReadsFrame : Obligations.RegisterReadsFrame := by
  intro i s t hi h
  obtain ⟨r, hr⟩ : ∃ r, accessOf i = some (.read r) := by
    rcases hi with rfl | rfl | rfl <;> exact ⟨_, rfl⟩
  obtain rfl := Host.Outcome.next.inj ((exec_of_accessOf hr s).symm.trans h)
  refine ⟨nextBlock_withReg_of_no_write (by simp) (by simp) s.ports s, rfl, fun hrst => ?_,
    fun hb => flashRead_tick_of_xip hb _⟩
  rw [tick_block, nextBlock_run s (by exact hrst)]
  exact ⟨rfl, rfl, rfl, rfl, by simp [wrWdata]⟩

/-! ## The values of register reads -/

/-- The register's bits below `8` alone make the value: zeros come above them, in the byte and above it (R71, R82). -/
theorem regValue_setWidth {n : Nat} (h : n ≤ 8) (width : Nat) (x : BitVec n) :
    regValue width (x.setWidth 8) = { width := width, bits := x.setWidth width } := by
  rw [regValue, BitVec.setWidth_setWidth (by omega)]

theorem modeByte_eq (b : Block) :
    modeByte b = (BitVec.ofBool b.modeCs ++ BitVec.ofBool b.modeBb).setWidth 8 := by
  unfold modeByte
  cases b.modeCs <;> cases b.modeBb <;> rfl

theorem rdataByte_eq (lines : Nibble) : rdataByte lines = lines.setWidth 8 :=
  (BitVec.setWidth_eq_append (by decide)).symm

theorem regRead_rdata (s : State) :
    regRead s .rdata = { width := s.params.regDataBits, bits := (lineLevels s).setWidth _ } := by
  rw [regRead, rdataByte_eq, regValue_setWidth (by decide)]

/-- Settles O10: the reserved bits of `mode` read 0. -/
theorem readModeReturnsMode : Obligations.ReadModeReturnsMode := by
  intro s
  refine ⟨_, exec_of_accessOf (i := .rdMode) rfl s, ?_⟩
  rw [readOut_tick_read, regRead, modeByte_eq, regValue_setWidth (by decide)]

/-- Settles O11: `wdata` has no reserved bit. -/
theorem readWdataReturnsWdata : Obligations.ReadWdataReturnsWdata := fun s =>
  ⟨_, exec_of_accessOf (i := .rdWdata) rfl s, readOut_tick_read .wdata s.ports s⟩

/-- Settles O12: the reserved bits of `rdata` read 0. -/
theorem readRdataReturnsLines : Obligations.ReadRdataReturnsLines := by
  intro s
  refine ⟨_, exec_of_accessOf (i := .rdRdata) rfl s, ?_⟩
  rw [readOut_tick_read, regRead_rdata]
  rfl

/-! ## Register writes -/

section write
variable {s : State} (hr : s.ports.rst = false) (dat : Byte)
include hr

theorem block_tick_withReg_of_run (a : RegAccess) :
    (tick (withReg a s.ports) s).block = runBlock (withReg a s.ports) s :=
  nextBlock_run (p := withReg a s.ports) s hr

theorem wrMode_withReg_write : wrMode (withReg (.write .mode dat) s.ports) = true :=
  (wrMode_iff _).2 ⟨hr, dat, rfl⟩

/-- A `mode` write is a configuration-update pulse, whatever the value (R118). -/
theorem cfgUpdate_withReg_write_mode : cfgUpdate (withReg (.write .mode dat) s.ports) s = true :=
  (cfgUpdate_iff _ s).2 (.inl (wrMode_withReg_write hr dat))

theorem wrWdata_withReg_write : wrWdata (withReg (.write .wdata dat) s.ports) = true :=
  (wrWdata_iff _).2 ⟨hr, dat, rfl⟩

end write

/-- Settles O16: the write is a pulse, and the pulse empties the read-ahead state. -/
theorem writeModeEffect : Obligations.WriteModeEffect := by
  intro s dat hr
  refine ⟨_, exec_of_accessOf (i := .wrMode dat) rfl s, ?_⟩
  rw [block_tick_withReg_of_run hr]
  exact ⟨rfl, rfl, readAhead_cfgUpdate (cfgUpdate_withReg_write_mode hr dat)⟩

/-- Without readiness the word is kept (R97). -/
theorem nextSeqRdata_of_not_ready {p : Ports} {s : State} (h : xipReady p s = false) :
    nextSeqRdata p s = s.block.seqRdata := by
  cases hs : s.block.seq <;> cases ha : s.block.xipReq <;> simp [nextSeqRdata, hs, ha, h]

/-- Outside `PENDING` the sequencer and the engine's read do not look at the register port (R96, R99). -/
theorem seq_xipReq_withReg_of_not_pending {s : State} (h : s.block.seq ≠ .pending) (a a' : RegAccess) (p : Ports) :
    nextSeq (withReg a p) s = nextSeq (withReg a' p) s ∧
      nextXipReq (withReg a p) s = nextXipReq (withReg a' p) s := by
  cases hs : s.block.seq with
  | idle => simp only [nextSeq, nextXipReq, hs]; exact ⟨rfl, rfl⟩
  | pending => exact absurd hs h
  | ack =>
    obtain ⟨hseq, -, -, hreq⟩ := ack_next (p := withReg a p) hs
    obtain ⟨hseq', -, -, hreq'⟩ := ack_next (p := withReg a' p) hs
    exact ⟨hseq.trans hseq'.symm, hreq.trans hreq'.symm⟩

/-- Settles O17: the pulse of the write rules readiness out, and nothing else of the sequencer and the one-shot looks at
the register port. -/
theorem writeModeFrame : Obligations.WriteModeFrame := by
  intro s t dat hr h
  obtain rfl := Host.Outcome.next.inj ((exec_of_accessOf (i := .wrMode dat) rfl s).symm.trans h)
  have hx := not_ready_of_cfgUpdate (cfgUpdate_withReg_write_mode hr dat)
  have hout : (tick (withoutReg s.ports) s).block = runBlock (withoutReg s.ports) s :=
    block_tick_withReg_of_run hr .idle
  rw [hout, block_tick_withReg_of_run hr]
  refine ⟨rfl, rfl, rfl, by simp [wrWdata], rfl, nextSeqRdata_of_not_ready hx, rfl, rfl, rfl,
    fun hs => ?_, fun hs => ?_, fun hb => flashRead_tick_of_xip hb _⟩
  · obtain ⟨hseq, hadr, -⟩ := pending_waits hs hx
    exact ⟨hseq, hadr⟩
  · exact seq_xipReq_withReg_of_not_pending hs _ _ _

/-- Settles O18: the two fields are the two nibbles of the value. -/
theorem writeWdataEffect : Obligations.WriteWdataEffect := by
  intro s dat hr
  refine ⟨_, exec_of_accessOf (i := .wrWdata dat) rfl s, ?_⟩
  rw [block_tick_withReg_of_run hr]
  refine ⟨fun k hk => ?_, wrWdata_withReg_write hr dat, rfl⟩
  simp [nextWdataD, nextWdataOe, wdataDOf, wdataOeOf, hk]

/-- A write to `wdata` reaches `wdata` and `bb_wr` alone (R153, R154). -/
theorem runBlock_withReg_write_wdata (p : Ports) (s : State) (dat : Byte) :
    runBlock (withReg (.write .wdata dat) p) s =
      { runBlock (withoutReg p) s with
        wdataD := wdataDOf dat, wdataOe := wdataOeOf dat, bbWr := wrWdata (withReg (.write .wdata dat) p) } := rfl

/-- Settles O19: the block is the one without the write, but for what the write reaches. -/
theorem writeWdataFrame : Obligations.WriteWdataFrame := by
  intro s t dat hr h
  obtain rfl := Host.Outcome.next.inj ((exec_of_accessOf (i := .wrWdata dat) rfl s).symm.trans h)
  have hout : (tick (withoutReg s.ports) s).block = runBlock (withoutReg s.ports) s :=
    block_tick_withReg_of_run hr .idle
  rw [hout, block_tick_withReg_of_run hr, runBlock_withReg_write_wdata]
  exact ⟨rfl, rfl, rfl, rfl, fun hb => flashRead_tick_of_xip hb _⟩

/-- A tick changes `mode` only by a write to it or by reset (R122). -/
theorem nextBlock_mode_cases (p : Ports) (s : State) :
    p.rst = true ∨ (∃ dat, p.reg = .write .mode dat) ∨
      ((nextBlock p s).modeBb = s.block.modeBb ∧ (nextBlock p s).modeCs = s.block.modeCs) := by
  cases hr : p.rst with
  | true => exact .inl rfl
  | false =>
    rw [nextBlock_run s hr]
    rcases nextMode_cases p s.block with ⟨dat, hreg, -⟩ | ⟨-, hkept⟩
    · exact .inr (.inl ⟨dat, hreg⟩)
    · exact .inr (.inr hkept)

/-- A tick changes `wdata` only by a write to it or by reset (R153). -/
theorem nextBlock_wdata_cases (p : Ports) (s : State) :
    p.rst = true ∨ (∃ dat, p.reg = .write .wdata dat) ∨
      ((nextBlock p s).wdataD = s.block.wdataD ∧ (nextBlock p s).wdataOe = s.block.wdataOe) := by
  cases hr : p.rst with
  | true => exact .inl rfl
  | false =>
    rw [nextBlock_run s hr]
    rcases nextWdata_cases p s.block with ⟨dat, hreg, -⟩ | ⟨-, hkept⟩
    · exact .inr (.inl ⟨dat, hreg⟩)
    · exact .inr (.inr hkept)

section carries
variable {i : Instr} {s : State} {p : Ports} (h : CarriesOperation i s p)
include h

theorem rst_of_carriesOperation (hp : p.rst = true) : i = .reset ∨ s.ports.rst = true := by
  rcases h with ⟨a, -, rfl⟩ | ⟨q, rfl⟩ | ⟨rfl, -⟩ | ⟨-, rfl⟩
  · exact .inr hp
  · exact .inr hp
  · exact .inl rfl
  · cases hp

/-- The access of the tick is the operation's own or the one the input carries. -/
theorem reg_of_carriesOperation {a : RegAccess} (hp : p.reg = a) (ha : a ≠ .idle) :
    accessOf i = some a ∨ s.ports.reg = a := by
  rcases h with ⟨a', hi, rfl⟩ | ⟨q, rfl⟩ | ⟨-, rfl⟩ | ⟨-, rfl⟩
  · exact .inl (hi.trans (congrArg some hp))
  · exact .inr hp
  · exact .inr hp
  · exact absurd hp.symm ha

end carries

/-- An access stands for one operation. -/
theorem eq_of_accessOf {i j : Instr} {a : RegAccess} (hi : accessOf i = some a) (hj : instrOfAccess a = .ok j) :
    i = j :=
  Except.ok.inj (((instrOfAccess_eq_ok_iff a i).2 hi).symm.trans hj)

/-- Settles O20: what the ports carry in the tick is the operation or what the input gives. -/
theorem registersChangeOnlyByWrite : Obligations.RegistersChangeOnlyByWrite := by
  intro i s t h
  obtain ⟨p, rfl, hp⟩ := exec_next_carries h
  refine ⟨fun hne => ?_, fun hne => ?_⟩
  · rcases nextBlock_mode_cases p s with hr | ⟨dat, hreg⟩ | ⟨hbb, hcs⟩
    · exact .inr ((rst_of_carriesOperation hp hr).imp_right .inl)
    · rcases reg_of_carriesOperation hp hreg nofun with hi | hs
      · exact .inl ⟨dat, eq_of_accessOf hi rfl⟩
      · exact .inr (.inr (.inr ⟨dat, hs⟩))
    · simp [hbb, hcs] at hne
  · rcases nextBlock_wdata_cases p s with hr | ⟨dat, hreg⟩ | ⟨hd, hoe⟩
    · exact .inr ((rst_of_carriesOperation hp hr).imp_right .inl)
    · rcases reg_of_carriesOperation hp hreg nofun with hi | hs
      · exact .inl ⟨dat, eq_of_accessOf hi rfl⟩
      · exact .inr (.inr (.inr ⟨dat, hs⟩))
    · simp [hd, hoe] at hne

end Sys2Proof.Proofs
end

section
/-! PROOFS. The pins, the data lines and the bit-bang clock (43_bitbang_bridge.md, 44_pins_and_step.md). -/

namespace Sys2Proof.Proofs

open Sys2Proof.Machine Sys2Proof.Safety

/-! ## Pins and lines -/

theorem pinOutputs_of_bitbang {s : State} (h : s.block.modeBb = true) :
    pinOutputs s =
      { csN := !s.block.modeCs, clk := s.block.bbClk, dqOe := s.block.wdataOe, dqO := s.block.wdataD } := by
  simp [pinOutputs, h]

theorem pinOutputs_of_xip {s : State} (h : s.block.modeBb = false) : pinOutputs s = Config.xipPins s.draws := by
  simp [pinOutputs, h]

/-- Settles O35: the pins of the tick are the owner's. -/
theorem ownerDrivesPins : Obligations.OwnerDrivesPins := fun s =>
  ⟨_, step_eq_tick s, fun h => congrArg some (pinOutputs_of_bitbang h), fun h => congrArg some (pinOutputs_of_xip h)⟩

/-- Settles O36: the rows of R172. -/
theorem lineResolution : Obligations.LineResolution := by
  intro s i
  unfold line
  cases blockDrive (pinOutputs s) i.val <;> cases driveOf s.input.ext i <;> simp [lineLevel]

/-- The bits of the lines' nibble are the lines (R76). -/
theorem getLsbD_lineLevels (s : State) (i : Fin 4) : (lineLevels s).getLsbD i.val = line s i := by
  unfold lineLevels
  fin_cases i <;> simp only [BitVec.getLsbD_append] <;> simp

/-- Settles O13: each line is a bit of the value read, and in bit-bang mode `wdata` is the block's drive of it. -/
theorem readRdataShowsDrivers : Obligations.ReadRdataShowsDrivers := by
  intro s i hp hb
  obtain ⟨hlow, hhigh, hdrvLow, hdrvHigh, -⟩ := lineResolution s i
  have hwidth : i.val < s.params.regDataBits := by
    simp only [Params.ok, Bool.and_eq_true, decide_eq_true_eq] at hp
    omega
  have hbit : (regRead s .rdata).bits.getLsbD i.val = line s i := by
    rw [regRead_rdata, BitVec.getLsbD_setWidth, getLsbD_lineLevels]
    simp [hwidth]
  have hdrive : blockDrive (pinOutputs s) i.val =
      if s.block.wdataOe.getLsbD i.val then (if s.block.wdataD.getLsbD i.val then .high else .low) else .z := by
    rw [blockDrive, pinOutputs_of_bitbang hb]
  refine ⟨_, _, exec_of_accessOf (i := .rdRdata) rfl s, readOut_tick_read .rdata s.ports s, ?_⟩
  rw [hbit]
  generalize s.block.wdataOe.getLsbD i.val = oe at hdrive ⊢
  generalize s.block.wdataD.getLsbD i.val = d at hdrive ⊢
  refine ⟨fun hoe hext => ?_, fun hoe => hlow (by rw [hdrive, hoe]; rfl), fun hoe => hhigh (by rw [hdrive, hoe]; rfl)⟩
  subst hoe
  cases d with
  | true => exact hdrvHigh hdrive (by rcases hext with h | h <;> simp [h])
  | false => exact hdrvLow hdrive (by rcases hext with h | h <;> simp [h])

/-! ## The bit-bang clock -/

/-- `wdata` written is `wdata` read (R75). -/
theorem wdataOe_append_wdataD (dat : Byte) : wdataOeOf dat ++ wdataDOf dat = dat :=
  BitVec.extractLsb'_append_extractLsb' (w := 4) (len := 4)

/-- The tick of a `wdata` write: the value, the mark of the write, the clock of the write before (R153, R154). -/
theorem exec_wrWdata_next {s t : State} {dat : Byte} (hr : s.ports.rst = false)
    (h : exec (.wrWdata dat) s = .next t) :
    wdataByte t.block = dat ∧ t.block.bbWr = true ∧ t.block.bbClk = s.block.bbWr := by
  obtain rfl := Host.Outcome.next.inj ((exec_of_accessOf (i := .wrWdata dat) rfl s).symm.trans h)
  rw [block_tick_withReg_of_run hr]
  exact ⟨wdataOe_append_wdataD dat, wrWdata_withReg_write hr dat, rfl⟩

/-- A step with no `wdata` write and no reset: the value stands, and the clock shows the write before (R154). -/
theorem step_next_of_no_wdata_write {s t : State} (hr : s.ports.rst = false) (hw : wrWdata s.ports = false)
    (h : step s = .next t) :
    wdataByte t.block = wdataByte s.block ∧ t.block.bbWr = false ∧ t.block.bbClk = s.block.bbWr := by
  obtain rfl : tick s.ports s = t := by simpa using h
  rw [tick_block, nextBlock_run s hr]
  refine ⟨?_, hw, rfl⟩
  rcases nextWdata_cases s.ports s.block with ⟨dat, hreg, -⟩ | ⟨-, hd, hoe⟩
  · simp [(wrWdata_iff _).2 ⟨hr, dat, hreg⟩] at hw
  · simp only [wdataByte, runBlock_wdataD, runBlock_wdataOe, hd, hoe]

/-- Settles O37: the mark of the write moves on to the clock, one tick after another. -/
theorem writeClocksOnce : Obligations.WriteClocksOnce := by
  intro s t₁ t₂ t₃ dat hr h₁ hr₁ hw₁ h₂ hr₂ hw₂ h₃
  obtain ⟨hv₁, hm₁, hc₁⟩ := exec_wrWdata_next hr h₁
  obtain ⟨hv₂, hm₂, hc₂⟩ := step_next_of_no_wdata_write hr₁ hw₁ h₂
  obtain ⟨hv₃, -, hc₃⟩ := step_next_of_no_wdata_write hr₂ hw₂ h₃
  exact ⟨hv₁, hc₁, hv₂.trans hv₁, hc₂.trans hm₁, hv₃.trans (hv₂.trans hv₁), hc₃.trans hm₂⟩

/-- Settles O38: the marks of the two writes reach the clock in adjacent ticks. -/
theorem adjacentWritesMerge : Obligations.AdjacentWritesMerge := by
  intro s t₁ t₂ t₃ t₄ dat₁ dat₂ hr h₁ hr₁ h₂ hr₂ hw₂ h₃ hr₃ hw₃ h₄
  obtain ⟨hv₁, hm₁, -⟩ := exec_wrWdata_next hr h₁
  obtain ⟨hv₂, hm₂, hc₂⟩ := exec_wrWdata_next hr₁ h₂
  obtain ⟨-, hm₃, hc₃⟩ := step_next_of_no_wdata_write hr₂ hw₂ h₃
  obtain ⟨-, -, hc₄⟩ := step_next_of_no_wdata_write hr₃ hw₃ h₄
  exact ⟨hv₁, hv₂, hc₂.trans hm₁, hc₃.trans hm₂, hc₄.trans hm₃⟩

end Sys2Proof.Proofs
end

section
/-! PROOFS. Bus requests, the one-shot, RESET and NOP in a tick (40_bus_sequencer.md, 41_mode_controller.md,
42_xip_engine.md, 44_pins_and_step.md). -/

namespace Sys2Proof.Proofs

open Sys2Proof.Machine Sys2Proof.Safety

/-! ## Requests -/

/-- Settles O22: the two requests run one tick, in which the request is accepted. -/
theorem requestAccepted : Obligations.RequestAccepted := by
  intro s adr datW hadr hr hs
  obtain ⟨hseq, hnext, hrdata, hreq⟩ :=
    idle_some (p := withBus (some { we := false, adr := BitVec.ofNat 18 adr, datW := 0#32 }) s.ports) hr hs rfl
  refine ⟨_, exec_busRd hadr s, (busWriteActsAsRead s adr datW).trans (exec_busRd hadr s), ?_⟩
  rw [tick_block, nextBlock_run s (by exact hr), ackOut_tick, hs]
  refine ⟨hseq, ?_, hreq.trans (congrArg some hnext.symm), hrdata, rfl⟩
  rw [runBlock_seqAdr, hnext, flashAddress_toNat, BitVec.toNat_ofNat, Nat.mod_eq_of_lt hadr]

theorem exec_busRd_of_busy {s : State} {adr : Nat} (hadr : adr < regionWords) (hs : s.block.seq ≠ .idle) :
    exec (.busRd adr) s = .next (tick s.ports s) := by
  rw [exec_busRd hadr, tick_withBus_of_busy hs]

/-- Settles O23: the tick of a busy sequencer looks at no request. -/
theorem requestIgnoredWhileBusy : Obligations.RequestIgnoredWhileBusy := by
  intro s adr datW hadr hs
  rw [busWriteActsAsRead, and_self, exec_busRd_of_busy hadr hs, tick_withoutBus_of_busy hs]

/-- A request enters `seq`, `seq_adr` and `xip_req` only (R96, R130). -/
theorem nextBlock_withBus (q q' : Option BusRequest) (p : Ports) (s : State) :
    nextBlock (withBus q p) s =
      { nextBlock (withBus q' p) s with
        seq := (nextBlock (withBus q p) s).seq, seqAdr := (nextBlock (withBus q p) s).seqAdr
        xipReq := (nextBlock (withBus q p) s).xipReq } := by
  cases hr : p.rst with
  | true => rw [nextBlock_rst s (by exact hr), nextBlock_rst s (by exact hr)]
  | false => rw [nextBlock_run s (by exact hr), nextBlock_run s (by exact hr)]; rfl

/-- Settles O24: either request runs the tick of a request, which reaches three components. -/
theorem requestFrame : Obligations.RequestFrame := by
  intro s t adr datW h
  obtain ⟨q, rfl⟩ := exec_bus_next h
  refine ⟨rfl, nextBlock_withBus (some q) none s.ports s, fun hr hreg => ?_, fun hb => flashRead_tick_of_xip hb _⟩
  rw [tick_block, nextBlock_run s (by exact hr)]
  simp [nextModeBb, nextModeCs, nextWdataD, nextWdataOe, hreg]

/-! ## The transaction -/

/-- Settles O27: with no pulse the draw is the readiness, and a fit chip answers with the four bytes. -/
theorem readinessDeliversWord : Obligations.ReadinessDeliversWord := by
  intro s a hr hs ha hc hready
  have hx : xipReady s.ports s = true := (xipReady_iff _ s).2 ⟨hr, ⟨a, ha⟩, hc, hready⟩
  obtain ⟨hseq, -, hrdata, hreq, hra⟩ := pending_ready hs ha hx
  refine ⟨_, step_eq_tick s, by simp [hs], ?_⟩
  rw [tick_block, nextBlock_run s hr, runBlock_seqRdata, hrdata]
  refine ⟨hseq, hreq, by simp [hra], fun hb hm hbusy ho => ?_, fun hb hm hbusy ho => ?_,
    fun hb => xipWord_unfit a (.inl hb)⟩
  · rw [xipWord_fit a hb hm hbusy, ho]; rfl
  · rw [xipWord_fit a hb hm hbusy, ho]; rfl

/-- Settles O33: the pulse rules readiness out, so the transaction waits; its read goes by the policy. -/
theorem pulseDiscardsRead : Obligations.PulseDiscardsRead := by
  intro s hr hc
  have hx := not_ready_of_cfgUpdate hc
  refine ⟨hx, _, step_eq_tick s, ?_⟩
  rw [tick_block, nextBlock_run s hr]
  refine ⟨readAhead_cfgUpdate hc, fun hs => ?_⟩
  obtain ⟨hseq, hadr, hrdata⟩ := pending_waits hs hx
  have hdiscard : s.block.xipReq ≠ none → nextXipReq s.ports s = discarded s := by
    intro hne
    obtain ⟨a, ha⟩ := Option.ne_none_iff_exists'.1 hne
    rw [pending_request hs ha hx, hc, if_pos rfl]
  refine ⟨hseq, hadr, hrdata, fun hnone => (pending_none hs hnone).2, fun hne hpol => ?_, fun hne hpol => ?_⟩
  · rw [runBlock_xipReq, hdiscard hne, discarded, hpol]
  · rw [runBlock_xipReq, hdiscard hne, discarded, hpol]

/-! ## The one-shot -/

/-- Settles O34, by the three phases of the one-shot. -/
theorem powerUpOneShot : Obligations.PowerUpOneShot := by
  intro s hr
  refine ⟨_, step_eq_tick s, ?_⟩
  rw [tick_block, nextBlock_run s hr]
  rcases powerUp_cases s.ports s with ⟨hd, hdone, hcnt⟩ | ⟨hd, hf, hdone, hcnt⟩ | ⟨hd, hf, hdone, hcnt⟩
  case inl => exact ⟨fun _ => ⟨hdone, hcnt⟩, by simp [hd], by simp [hd]⟩
  case inr.inl =>
    obtain ⟨-, -, hfull⟩ := (puFire_iff _ s).1 hf
    refine ⟨by simp [hd], fun _ hne => absurd hfull hne, fun _ _ => ⟨hdone, hcnt, ?_, fun hreg => ?_⟩⟩
    · exact readAhead_cfgUpdate ((cfgUpdate_iff _ s).2 (.inr hf))
    · rcases nextMode_cases s.ports s.block with ⟨dat, hwrite, -⟩ | ⟨-, hkept⟩
      · exact absurd hwrite (hreg dat)
      · exact hkept
  case inr.inr =>
    exact ⟨by simp [hd], fun _ _ => ⟨hdone, hcnt⟩,
      fun _ hfull => absurd ((puFire_iff _ s).2 ⟨hr, hd, hfull⟩) (by simp [hf])⟩

/-! ## Reset -/

theorem atReset_of_rst {p : Ports} {s : State} (h : p.rst = true) : (tick p s).block = Block.atReset s.params :=
  nextBlock_rst s h

/-- Settles O39: RESET raises the reset input, whatever the ports carry. -/
theorem resetForcesResetState : Obligations.ResetForcesResetState := fun s =>
  ⟨_, exec_reset s, rfl, rfl, atReset_of_rst rfl, fun hb => flashRead_tick_of_xip hb _⟩

/-- Settles O40: every operation but NOP leaves the reset input as it is or raises it. -/
theorem resetWinsOverOperations : Obligations.ResetWinsOverOperations := by
  intro s t i hr hi h
  obtain ⟨p, rfl, hp⟩ := exec_next_carries h
  refine atReset_of_rst ?_
  rcases hp with ⟨a, -, rfl⟩ | ⟨q, rfl⟩ | ⟨-, rfl⟩ | ⟨hnop, -⟩
  · exact hr
  · exact hr
  · rfl
  · exact absurd hnop hi

/-- Settles O42, component by component. -/
theorem resetValues : Obligations.ResetValues := ⟨rfl, rfl, rfl, rfl, rfl, rfl⟩

/-! ## NOP -/

theorem block_tick_idlePorts (s : State) : (tick idlePorts s).block = runBlock idlePorts s :=
  nextBlock_run (p := idlePorts) s rfl

theorem nextSeqAdr_of_no_request {p : Ports} (s : State) (h : p.bus = none) : nextSeqAdr p s = s.block.seqAdr := by
  cases hs : s.block.seq <;> simp [nextSeqAdr, requestAddress, hs, h]

/-- Outside `PENDING` an idle bus port leaves the sequencer to come back to `IDLE` (R96, R99). -/
theorem seq_of_not_pending {p : Ports} {s : State} (hs : s.block.seq ≠ .pending) (hb : p.bus = none) :
    nextSeq p s = .idle ∧ nextXipReq p s = s.block.xipReq ∧ nextSeqRdata p s = s.block.seqRdata := by
  cases h : s.block.seq with
  | idle =>
    obtain ⟨hseq, -, hrdata, hreq⟩ := idle_none h hb
    exact ⟨hseq, hreq, hrdata⟩
  | pending => exact absurd h hs
  | ack =>
    obtain ⟨hseq, -, hrdata, hreq⟩ := ack_next (p := p) h
    exact ⟨hseq, hreq, hrdata⟩

/-- With idle ports nothing happens in a quiescent state (R250): once its five components are known, the next value of
each component computes to the value before. -/
theorem runBlock_idlePorts_of_quiescent {s : State} (h : Quiescent s.block) : runBlock idlePorts s = s.block := by
  obtain ⟨⟨modeBb, modeCs, wdataD, wdataOe, bbWr, bbClk, puCnt, puDone, seq, seqAdr, seqRdata, xipReq, xipRa⟩, _⟩ := s
  obtain ⟨hseq, hreq, hwr, hclk, hdone⟩ := h
  dsimp only at hseq hreq hwr hclk hdone
  subst hseq hreq hwr hclk hdone
  rfl

/-- Settles O43: idle ports write no register and present no request. -/
theorem nopTick : Obligations.NopTick := by
  intro s
  refine ⟨_, exec_nop s, rfl, ?_⟩
  rw [block_tick_idlePorts]
  exact ⟨rfl, rfl, rfl, rfl, rfl, rfl, nextSeqAdr_of_no_request s rfl, fun hs => seq_of_not_pending hs rfl,
    fun hb => flashRead_tick_of_xip hb _, fun hq => ⟨runBlock_idlePorts_of_quiescent hq, by simp [hq.1]⟩⟩

end Sys2Proof.Proofs
end

section
/-! PROOFS. What every step keeps: the invariants of 10_state.md, the hang of 42_xip_engine.md, the flash chip's fitness
(70_reset_and_hazards.md) and the isolation of the read-ahead state. -/

namespace Sys2Proof.Proofs

open Sys2Proof.Machine Sys2Proof.Safety

/-! ## The invariants -/

theorem requestMatches_of_none {b : Block} (h : b.xipReq = none) : RequestMatches b := by
  simp only [RequestMatches, h]

theorem requestMatches_of_pending {b : Block} (hs : b.seq = .pending) (h : b.xipReq = some b.seqAdr) :
    RequestMatches b := by
  simp only [RequestMatches, h]
  exact ⟨hs, trivial⟩

/-- R37 outside `PENDING`: no read is in progress. -/
theorem xipReq_eq_none_of_not_pending {b : Block} (h : RequestMatches b) (hs : b.seq ≠ .pending) :
    b.xipReq = none := by
  cases ha : b.xipReq with
  | none => rfl
  | some a => exact absurd (seq_pending_of_requestMatches h ha) hs

theorem eq_seqAdr_of_requestMatches {b : Block} {a : FlashAddress} (h : RequestMatches b) (ha : b.xipReq = some a) :
    a = b.seqAdr := by
  simp only [RequestMatches, ha] at h
  exact h.2

/-- A waiting read is gone, or still the transaction's (R136 to R138). -/
theorem nextXipReq_of_waiting {p : Ports} {s : State} (h : RequestMatches s.block) (hs : s.block.seq = .pending)
    (hx : xipReady p s = false) : nextXipReq p s = none ∨ nextXipReq p s = some s.block.seqAdr := by
  cases ha : s.block.xipReq with
  | none => exact .inl (pending_none hs ha).2
  | some a =>
    obtain rfl := eq_seqAdr_of_requestMatches h ha
    rw [pending_request hs ha hx]
    cases hc : cfgUpdate p s with
    | false => exact .inr rfl
    | true => cases hpol : s.params.discardPolicy <;> simp [discarded, hpol]

theorem requestMatches_runBlock {p : Ports} {s : State} (hr : p.rst = false) (h : RequestMatches s.block) :
    RequestMatches (runBlock p s) := by
  cases hs : s.block.seq with
  | idle =>
    cases hb : p.bus with
    | none =>
      obtain ⟨-, -, -, hreq⟩ := idle_none hs hb
      exact requestMatches_of_none (hreq.trans (xipReq_eq_none_of_not_pending h (by simp [hs])))
    | some q =>
      obtain ⟨hseq, hadr, -, hreq⟩ := idle_some hr hs hb
      exact requestMatches_of_pending hseq (hreq.trans (congrArg some hadr.symm))
  | pending =>
    cases hx : xipReady p s with
    | true =>
      obtain ⟨-, ⟨a, ha⟩, -, -⟩ := (xipReady_iff p s).1 hx
      obtain ⟨-, -, -, hreq, -⟩ := pending_ready hs ha hx
      exact requestMatches_of_none hreq
    | false =>
      obtain ⟨hseq, hadr, -⟩ := pending_waits hs hx
      rcases nextXipReq_of_waiting h hs hx with hreq | hreq
      · exact requestMatches_of_none hreq
      · exact requestMatches_of_pending hseq (hreq.trans (congrArg some hadr.symm))
  | ack =>
    obtain ⟨-, -, -, hreq⟩ := ack_next (p := p) hs
    exact requestMatches_of_none (hreq.trans (xipReq_eq_none_of_not_pending h (by simp [hs])))

/-- R37 is kept by every tick. -/
theorem requestMatches_nextBlock (p : Ports) {s : State} (h : RequestMatches s.block) :
    RequestMatches (nextBlock p s) := by
  cases hr : p.rst with
  | true => rw [nextBlock_rst s hr]; exact requestMatches_of_none rfl
  | false => rw [nextBlock_run s hr]; exact requestMatches_runBlock hr h

/-- R119 is kept by every tick. -/
theorem powerUpTimed_tick (p : Ports) {s : State} (h : PowerUpTimed s) : PowerUpTimed (tick p s) := by
  obtain ⟨hcnt, hdone⟩ := h
  cases hr : p.rst with
  | true => simp [PowerUpTimed, nextBlock_rst s hr, hr]
  | false =>
    rw [PowerUpTimed, tick_block, nextBlock_run s hr, runBlock_puCnt, runBlock_puDone, tick_params, tick_tickNo,
      if_neg (by simp [hr])]
    rcases powerUp_cases p s with ⟨hd, hd', hcnt'⟩ | ⟨hd, hf, hd', hcnt'⟩ | ⟨hd, hf, hd', hcnt'⟩
    case inl =>
      have hlate := hdone.1 hd
      rw [hd', hcnt']
      exact ⟨by omega, by simp only [true_iff]; omega⟩
    case inr.inl =>
      obtain ⟨-, -, hfull⟩ := (puFire_iff p s).1 hf
      rw [hd', hcnt']
      exact ⟨by omega, by simp only [true_iff]; omega⟩
    case inr.inr =>
      have hearly : ¬s.params.powerupDelay < s.tickNo := by rw [← hdone, hd]; decide
      have hbelow : s.block.puCnt ≠ s.params.powerupDelay := fun hfull => by
        simp [(puFire_iff p s).2 ⟨hr, hd, hfull⟩] at hf
      rw [hd', hcnt']
      exact ⟨by omega, by simp only [Bool.false_eq_true, false_iff]; omega⟩

/-- R39 says no more than R119 does. -/
theorem powerUpBounded_of_timed {s : State} (h : PowerUpTimed s) : PowerUpBounded s := by
  obtain ⟨hcnt, hdone⟩ := h
  refine ⟨by omega, fun hd => ?_⟩
  have := hdone.1 hd
  omega

/-- `seq_adr` is kept or taken from a request (R96). -/
theorem addressInRegion_nextSeqAdr (p : Ports) {s : State} (h : AddressInRegion s.block.seqAdr) :
    AddressInRegion (nextSeqAdr p s) := by
  cases hb : p.bus with
  | none => rw [nextSeqAdr_of_no_request s hb]; exact h
  | some q =>
    by_cases hs : s.block.seq = .idle
    · have hadr : nextSeqAdr p s = flashAddress q.adr := by simp [nextSeqAdr, requestAddress, hs, hb]
      rw [hadr]
      exact addressInRegion_flashAddress q.adr
    · rw [nextSeqAdr_of_busy hs]; exact h

theorem addressInRegion_nextBlock (p : Ports) {s : State} (h : AddressInRegion s.block.seqAdr) :
    AddressInRegion (nextBlock p s).seqAdr := by
  cases hr : p.rst with
  | true => rw [nextBlock_rst s hr, atReset_seqAdr]; decide
  | false => rw [nextBlock_run s hr]; exact addressInRegion_nextSeqAdr p h

/-- Every tick keeps the invariants, whatever the ports carry. -/
theorem inv_tick (p : Ports) {s : State} (h : Inv s) : Inv (tick p s) where
  request := requestMatches_nextBlock p h.request
  bounded := powerUpBounded_of_timed (powerUpTimed_tick p h.timed)
  timed := powerUpTimed_tick p h.timed
  address := addressInRegion_nextBlock p h.address
  memory := wf_nextFlash h.memory
  params := h.params

/-- Settles O52: a step is a tick. -/
theorem stepKeepsInvariant : Obligations.StepKeepsInvariant := by
  intro s t h hst
  obtain rfl : tick s.ports s = t := by simpa using hst
  exact inv_tick s.ports h

/-- Settles O51: the free parameters of the reset machine keep the bounds of R12. -/
theorem invariantAtReset : Obligations.InvariantAtReset where
  request := trivial
  bounded := ⟨Nat.zero_le _, nofun⟩
  timed := ⟨(Nat.zero_min _).symm, by simp [State.reset]⟩
  address := by decide
  memory := wf_reset
  params := by simp [Params.ok, State.reset, Config.params, RegOffsets.ok, Config.regOffsets]

/-! ## The hang -/

/-- How a machine comes to be hung in a tick: it was, or a pulse discarded its read under the policy `hang` (R137). -/
theorem hung_nextBlock_cases {p : Ports} {s : State} (h : Hung (nextBlock p s)) :
    p.rst = false ∧ s.block.seq = .pending ∧
      (s.block.xipReq = none ∨
        s.block.xipReq ≠ none ∧ cfgUpdate p s = true ∧ s.params.discardPolicy = .hang) := by
  obtain ⟨hseq, hreq⟩ := h
  cases hr : p.rst with
  | true => simp [nextBlock_rst s hr] at hseq
  | false =>
    rw [nextBlock_run s hr] at hseq hreq
    refine ⟨rfl, ?_⟩
    cases hs : s.block.seq with
    | idle =>
      cases hb : p.bus with
      | none => cases hseq.symm.trans (idle_none hs hb).1
      | some q => cases hreq.symm.trans (idle_some hr hs hb).2.2.2
    | ack => cases hseq.symm.trans (ack_next hs).1
    | pending =>
      refine ⟨rfl, ?_⟩
      cases ha : s.block.xipReq with
      | none => exact .inl rfl
      | some a =>
        cases hx : xipReady p s with
        | true => cases hseq.symm.trans (pending_ready hs ha hx).1
        | false =>
          have hnext := hreq.symm.trans (pending_request hs ha hx)
          cases hc : cfgUpdate p s with
          | false => simp [hc] at hnext
          | true =>
            cases hpol : s.params.discardPolicy with
            | hang => exact .inr ⟨nofun, rfl, rfl⟩
            | restart => simp [hc, discarded, hpol] at hnext

/-- Settles O46: of the two ways to be hung after a tick, one needs a machine that was. -/
theorem hangNeedsPulse : Obligations.HangNeedsPulse := by
  intro s t hst hs ht
  obtain rfl : tick s.ports s = t := by simpa using hst
  obtain ⟨hr, hseq, hnone | hpulse⟩ := hung_nextBlock_cases ht
  · exact absurd ⟨hseq, hnone⟩ hs
  · exact ⟨hr, hseq, hpulse⟩

/-- Before the pulse has fired, with no access yet, the sequencer does not leave `IDLE` (R237). -/
theorem not_pending_of_waitsForPowerUp {p : Ports} {s : State} (hw : WaitsForPowerUp p s)
    (h : s.block.puDone = false → s.block.seq ≠ .pending) (hd : (nextBlock p s).puDone = false) :
    (nextBlock p s).seq ≠ .pending := by
  cases hr : p.rst with
  | true => simp [nextBlock_rst s hr]
  | false =>
    rw [nextBlock_run s hr] at hd ⊢
    have hd' : s.block.puDone = false := (Bool.or_eq_false_iff.1 hd).1
    obtain ⟨hseq, -⟩ := seq_of_not_pending (h hd') (hw hd').1
    simp [hseq]

/-- Settles O47: no pulse comes during a read, for a `mode` write is kept from it and the power-up pulse finds no
transaction pending. -/
theorem dutiesPreventHang : Obligations.DutiesPreventHang := by
  intro s t hst hwait hmode ⟨hs, hearly⟩
  obtain rfl : tick s.ports s = t := by simpa using hst
  refine ⟨fun ht => ?_, not_pending_of_waitsForPowerUp hwait hearly⟩
  obtain ⟨-, hseq, -, hpulse, -⟩ := hangNeedsPulse s _ hst hs ht
  rcases (cfgUpdate_iff _ s).1 hpulse with hw | hf
  · simp [hmode hseq] at hw
  · obtain ⟨-, hd, -⟩ := (puFire_iff _ s).1 hf
    exact hearly hd hseq

/-- A tick without reset leaves a hung machine hung (R137). -/
theorem hung_tick {p : Ports} {s : State} (hr : p.rst = false) (h : Hung s.block) : Hung (tick p s).block := by
  obtain ⟨hs, hreq⟩ := h
  obtain ⟨hx, hreq'⟩ := pending_none (p := p) hs hreq
  rw [tick_block, nextBlock_run s hr]
  exact ⟨(pending_waits hs hx).1, hreq'⟩

theorem run_succ_tick (n : Nat) (s : State) :
    Host.Core.run core (n + 1) s = Host.Core.run core n (tick s.ports s) :=
  run_succ n (step_eq_tick s)

/-- No reset in the first ticks of the script: none in the coming tick, an unscripted one being idle, and none in
those after it. -/
theorem no_rst_of_take_succ {s : State} {n : Nat} (h : ∀ inp ∈ s.script.take (n + 1), decodeC inp.c = false) :
    s.ports.rst = false ∧ ∀ inp ∈ s.script.tail.take n, decodeC inp.c = false := by
  show decodeC s.input.c = false ∧ _
  unfold State.input
  cases hl : s.script with
  | nil => exact ⟨(by decide : decodeC 0#1 = false), by simp⟩
  | cons x l =>
    rw [hl, List.take_succ_cons, List.forall_mem_cons] at h
    exact h

/-- Settles O44, by induction on the number of ticks. -/
theorem hangLastsUntilReset : Obligations.HangLastsUntilReset := by
  intro n
  induction n with
  | zero => exact fun s h _ => ⟨s, rfl, h, nofun⟩
  | succ n ih =>
    intro s h hscript
    obtain ⟨hr, htail⟩ := no_rst_of_take_succ hscript
    obtain ⟨t, hrun, ht, hack⟩ := ih (tick s.ports s) (hung_tick hr h) htail
    refine ⟨t, (run_succ_tick n s).trans hrun, ht, fun _ => ?_⟩
    cases n with
    | zero =>
      obtain rfl : tick s.ports s = t := Host.Outcome.next.inj hrun
      simp [h.1]
    | succ n => exact hack n.succ_pos

/-- Settles O45, by induction on the number of ticks: the request held finds the sequencer busy and no acknowledge. -/
theorem readNeverEndsWhileHung : Obligations.ReadNeverEndsWhileHung := by
  intro fuel
  induction fuel with
  | zero => exact fun _ _ _ _ => rfl
  | succ fuel ih =>
    intro adr s h hscript
    obtain ⟨hr, htail⟩ := no_rst_of_take_succ hscript
    have hack : ackNow s = false := by simp [ackNow, h.1]
    rw [read32, holdUntilAck]
    rcases Nat.lt_or_ge adr regionWords with hadr | hadr
    · rw [exec_busRd_of_busy hadr (by simp [h.1])]
      simp only [hack]
      exact ih adr (tick s.ports s) (hung_tick hr h) htail
    · rw [(beyondRegionRefused s adr 0#32 hadr).1]

/-! ## The flash chip -/

/-- Settles O50, from the rules of the two marks and of an unfit chip's word. -/
theorem unfitChipAnswersFreely : Obligations.UnfitChipAnswersFreely := by
  refine ⟨fun s t h hcause => ?_, fun s t hunfit h hs hx => ?_, fun i s t h => ?_, fun s t hb hw hbb hduty h => ?_⟩
  · obtain rfl := Host.Outcome.next.inj ((exec_reset s).symm.trans h)
    rcases hcause with hreq | hb | hbusy
    · simp [nextChipMidCommand, Option.isSome_iff_ne_none, hreq]
    · simp [nextChipMidCommand, hb]
    · simp [nextChipMidCommand, hbusy]
  · obtain rfl : tick s.ports s = t := by simpa using h
    obtain ⟨hr, ⟨a, ha⟩, -⟩ := (xipReady_iff _ s).1 hx
    obtain ⟨-, -, hrdata, -⟩ := pending_ready hs ha hx
    refine ⟨?_, by simp [nextChipMidCommand, hr, hs, hx]⟩
    rw [tick_block, nextBlock_run s hr, runBlock_seqRdata, hrdata, xipWord_unfit a (.inr hunfit)]
  · obtain ⟨p, rfl⟩ := exec_next h
    rfl
  · obtain rfl : tick s.ports s = t := by simpa using h
    obtain ⟨hr, -⟩ := (wrMode_iff _).1 hw
    obtain ⟨-, hidle⟩ := hduty hb hw hbb
    rw [tick_block, nextBlock_run s hr]
    exact ⟨hbb, by simp [nextChipBusy, hidle]⟩

/-! ## The read-ahead state -/

/-- The machine with this read-ahead state. -/
def withReadAhead (ra : ReadAhead) (s : State) : State := { s with block := { s.block with xipRa := ra } }

/-- No rule but that of the read-ahead state itself reads it (R40). -/
theorem tick_withReadAhead (p : Ports) (s : State) (ra ra' : ReadAhead) :
    withReadAhead ra' (tick p (withReadAhead ra s)) = withReadAhead ra' (tick p s) := by
  have hblock : { nextBlock p (withReadAhead ra s) with xipRa := ra' } = { nextBlock p s with xipRa := ra' } := by
    cases hr : p.rst with
    | true => rw [nextBlock_rst _ hr, nextBlock_rst s hr]; rfl
    | false => rw [nextBlock_run _ hr, nextBlock_run s hr]; rfl
  simp only [withReadAhead, tick] at hblock ⊢
  rw [hblock]
  rfl

/-- Settles O53: the ports do not look at the block, so both machines run one tick. -/
theorem readAheadInfluencesNothing : Obligations.ReadAheadInfluencesNothing := by
  intro s t t' ra ra' h h'
  obtain rfl : tick s.ports s = t := by simpa using h
  obtain rfl : tick s.ports (withReadAhead ra s) = t' := Host.Outcome.next.inj ((step_eq_tick _).symm.trans h')
  exact tick_withReadAhead s.ports s ra ra'

end Sys2Proof.Proofs
end

section
/-! PROOFS. One whole transaction (40_bus_sequencer.md R95 to R107): acceptance, the ticks of waiting, the answer and
the acknowledge, along a script. -/

namespace Sys2Proof.Proofs

open Sys2Proof.Machine Sys2Proof.Safety

/-! ## Runs -/

/-- The last of several ticks. -/
theorem run_succ_of_run {n : Nat} {s t : State} (h : Host.Core.run core n s = .next t) :
    Host.Core.run core (n + 1) s = .next (tick t.ports t) := by
  induction n generalizing s with
  | zero =>
    obtain rfl : s = t := Host.Outcome.next.inj h
    exact run_succ_tick 0 s
  | succ n ih =>
    rw [run_succ_tick] at h ⊢
    exact ih h

/-- An input with no reset and no `mode` write. -/
def KeepsMode (o : RegOffsets) (inp : TickInput) : Prop :=
  decodeC inp.c = false ∧ ∀ dat, decodeR o inp.r ≠ .write .mode dat

theorem input_of_script {s : State} {x : TickInput} {l : List TickInput} (h : s.script = x :: l) : s.input = x := by
  simp [State.input, h]

/-! ## The machine while it serves a transaction -/

/-- `u` comes after `s` with the power-up pulse fired, the engine owning the pins and a fit chip, with the same flash
and parameters. -/
structure Serving (s u : State) : Prop where
  fired  : u.block.puDone = true
  xip    : u.block.modeBb = false
  whole  : u.chipMidCommand = false
  free   : u.chipBusy = false
  flash  : u.flash = s.flash
  params : u.params = s.params

section serving
variable {s u : State} (h : Serving s u) (hk : KeepsMode s.params.regOffsets u.input)
include h hk

/-- The ports of such an input. -/
theorem ports_of_keepsMode : u.ports.rst = false ∧ ∀ dat, u.ports.reg ≠ .write .mode dat := by
  rw [← h.params] at hk
  exact hk

theorem cfgUpdate_of_serving : cfgUpdate u.ports u = false := by
  obtain ⟨hr, hreg⟩ := ports_of_keepsMode h hk
  rw [Bool.eq_false_iff, ne_eq, cfgUpdate_iff, wrMode_iff, puFire_iff, h.fired]
  rintro (⟨-, dat, hw⟩ | ⟨-, hd, -⟩)
  · exact hreg dat hw
  · cases hd

theorem serving_tick : Serving s (tick u.ports u) := by
  obtain ⟨hr, hreg⟩ := ports_of_keepsMode h hk
  have hblock : (tick u.ports u).block = runBlock u.ports u := nextBlock_run u hr
  refine ⟨?_, ?_, ?_, not_nextChipBusy h.xip h.free, (nextFlash_of_xip h.xip).trans h.flash, h.params⟩
  · rw [hblock, runBlock_puDone, nextPuDone, h.fired, Bool.true_or]
  · rcases nextMode_cases u.ports u.block with ⟨dat, hw, -⟩ | ⟨-, hbb, -⟩
    · exact absurd hw (hreg dat)
    · rw [hblock, runBlock_modeBb, hbb, h.xip]
  · simp [nextChipMidCommand, hr, h.whole]

end serving

/-- A transaction of `s` whose read at `a` is in progress, with no acknowledge in the tick just passed. -/
structure Awaiting (s : State) (a : FlashAddress) (u : State) : Prop where
  serving : Serving s u
  pending : u.block.seq = .pending
  request : u.block.xipReq = some a
  silent  : ackOut u = false

section awaiting
variable {s u : State} {a : FlashAddress}

/-- The tick of acceptance (R96, R130). -/
theorem awaiting_of_request (h : Serving s s) (hk : KeepsMode s.params.regOffsets s.input) {q : BusRequest}
    (hs : s.block.seq = .idle) (hb : s.ports.bus = some q) : Awaiting s (flashAddress q.adr) (tick s.ports s) := by
  obtain ⟨hr, -⟩ := ports_of_keepsMode h hk
  obtain ⟨hseq, -, -, hreq⟩ := idle_some hr hs hb
  have hblock : (tick s.ports s).block = runBlock s.ports s := nextBlock_run s hr
  exact ⟨serving_tick h hk, by rw [hblock]; exact hseq, by rw [hblock]; exact hreq, by simp [hs]⟩

variable (h : Awaiting s a u) (hk : KeepsMode s.params.regOffsets u.input)
include h hk

/-- A tick of waiting (R97). -/
theorem awaiting_tick (hw : u.input.ready = false) : Awaiting s a (tick u.ports u) := by
  obtain ⟨hr, -⟩ := ports_of_keepsMode h.serving hk
  have hx : xipReady u.ports u = false := by simp [xipReady, hw]
  have hblock : (tick u.ports u).block = runBlock u.ports u := nextBlock_run u hr
  refine ⟨serving_tick h.serving hk, ?_, ?_, by simp [h.pending]⟩
  · rw [hblock]
    exact (pending_waits h.pending hx).1
  · rw [hblock, runBlock_xipReq, pending_request h.pending h.request hx, cfgUpdate_of_serving h.serving hk]
    rfl

/-- The tick of the answer (R98): the word is the one at the address, as the flash of `s` has it. -/
theorem ack_of_awaiting (hw : u.input.ready = true) :
    (tick u.ports u).block.seq = .ack ∧
      (tick u.ports u).block.seqRdata = pack s.params.byteOrder (memRead s.flash a) := by
  obtain ⟨hr, -⟩ := ports_of_keepsMode h.serving hk
  have hx : xipReady u.ports u = true :=
    (xipReady_iff _ u).2 ⟨hr, ⟨a, h.request⟩, cfgUpdate_of_serving h.serving hk, hw⟩
  obtain ⟨hseq, -, hrdata, -⟩ := pending_ready h.pending h.request hx
  have hblock : (tick u.ports u).block = runBlock u.ports u := nextBlock_run u hr
  rw [hblock, runBlock_seqRdata, hrdata, xipWord_fit a h.serving.xip h.serving.whole h.serving.free, h.serving.flash,
    h.serving.params]
  exact ⟨hseq, rfl⟩

end awaiting

/-- The ticks of waiting, by induction on their inputs. -/
theorem run_of_awaiting {s : State} {a : FlashAddress} {wait rest : List TickInput}
    (hwait : ∀ inp ∈ wait, KeepsMode s.params.regOffsets inp ∧ inp.ready = false) {u : State} (hu : Awaiting s a u)
    (hscript : u.script = wait ++ rest) {k : Nat} (hk : k ≤ wait.length) :
    ∃ v : State, Host.Core.run core k u = .next v ∧ Awaiting s a v ∧ v.script = wait.drop k ++ rest := by
  induction wait generalizing u k with
  | nil =>
    obtain rfl : k = 0 := Nat.le_zero.1 hk
    exact ⟨u, rfl, hu, hscript⟩
  | cons x wait ih =>
    cases k with
    | zero => exact ⟨u, rfl, hu, hscript⟩
    | succ k =>
      obtain ⟨⟨hkeep, hready⟩, hwait⟩ := List.forall_mem_cons.1 hwait
      have hinput : u.input = x := input_of_script hscript
      rw [run_succ_tick]
      exact ih hwait (awaiting_tick hu (hinput.symm ▸ hkeep) (hinput.symm ▸ hready)) (by simp [hscript])
        (Nat.le_of_succ_le_succ hk)

/-- A format B word that decodes to a request of either kind carries its address. -/
theorem decodeB_of_decode_bus {o : RegOffsets} {w : BWord} {adr : Nat}
    (h : decode o (.b w) = .ok (.busRd adr) ∨ ∃ datW, decode o (.b w) = .ok (.busWr adr datW)) :
    ∃ q, decodeB w = some q ∧ q.adr = BitVec.ofNat 18 adr := by
  cases hq : decodeB w with
  | none => simp [decode, hq, instrOfRequest] at h
  | some q =>
    have hadr : q.adr.toNat = adr := by
      cases hwe : q.we <;> simpa [decode, hq, instrOfRequest, hwe] using h
    exact ⟨q, rfl, by rw [← hadr, BitVec.ofNat_toNat, BitVec.setWidth_eq]⟩

/-- Settles O32: acceptance, the ticks of waiting, the answer, the acknowledge. -/
theorem transactionTiming : Obligations.TransactionTiming := by
  intro s adr x y z wait rest hs hfired hxip hwhole hfree hdecode hscript hkeep hwait hready
  obtain ⟨q, hq, hadr⟩ := decodeB_of_decode_bus hdecode
  have hx : s.input = x := input_of_script hscript
  have hbus : s.ports.bus = some q := by rw [← hx] at hq; exact hq
  have hserving : Serving s s := ⟨hfired, hxip, hwhole, hfree, rfl, rfl⟩
  have haccept : Awaiting s (flashAddress q.adr) (tick s.ports s) :=
    awaiting_of_request hserving (hx.symm ▸ hkeep x (by simp)) hs hbus
  have hwaiting : ∀ inp ∈ wait, KeepsMode s.params.regOffsets inp ∧ inp.ready = false :=
    fun inp hinp => ⟨hkeep inp (by simp [hinp]), hwait inp hinp⟩
  have hrun : ∀ k ≤ wait.length, ∃ v : State, Host.Core.run core (k + 1) s = .next v ∧
      Awaiting s (flashAddress q.adr) v ∧ v.script = wait.drop k ++ y :: z :: rest := fun k hk => by
    rw [run_succ_tick]
    exact run_of_awaiting hwaiting haccept (by simp [hscript]) hk
  obtain ⟨v, hv, hlast, hvscript⟩ := hrun wait.length le_rfl
  have hy : v.input = y := input_of_script (l := z :: rest) (by simpa using hvscript)
  obtain ⟨hack, hword⟩ := ack_of_awaiting hlast (hy.symm ▸ hkeep y (by simp)) (hy.symm ▸ hready)
  have hanswer := run_succ_of_run hv
  refine ⟨fun k hk => ?_, _, run_succ_of_run hanswer, nextBlock_seq_of_ack _ hack,
    by rw [ackOut_tick, hack]; rfl, ?_⟩
  · rcases Nat.lt_or_ge wait.length k with hlt | hle
    · obtain rfl : k = wait.length + 1 := by omega
      exact ⟨_, hanswer, by simp [hlast.pending]⟩
    · obtain ⟨u, hu, hsilent, -⟩ := hrun k hle
      exact ⟨u, hu, hsilent.silent⟩
  · rw [datOut_tick, datR_ack hack, hword, hadr]

end Sys2Proof.Proofs
end

section
/-! PROOFS. Header records in the artifact and in the flash (47_flash_image_format.md R196, R198). -/

namespace Sys2Proof.Proofs

open Sys2Proof.Machine Sys2Proof.Safety

/-! ## The records of an artifact -/

/-- Encoded headers are five records of 32 bytes (R190, R193). -/
theorem encodeBootHeaders_ok {offs : List BootOffset} {rs : List (List Byte)} (h : encodeBootHeaders offs = .ok rs) :
    rs.length = 5 ∧ ∀ r ∈ rs, r.length = 32 := by
  cases offs with
  | nil => cases h
  | cons off offs =>
    obtain ⟨hfew, hmany⟩ := bootHeadersShape off offs
    rcases Nat.lt_or_ge offs.length 5 with hlt | hle
    · obtain ⟨rs', hrs', hlen, hrec, -⟩ := hfew hlt
      obtain rfl : rs = rs' := Except.ok.inj (h.symm.trans hrs')
      exact ⟨hlen, hrec⟩
    · cases h.symm.trans (hmany hle)

theorem flatten_length_of_encodeBootHeaders {offs : List BootOffset} {rs : List (List Byte)}
    (h : encodeBootHeaders offs = .ok rs) : rs.flatten.length = 160 := by
  obtain ⟨hlen, hrec⟩ := encodeBootHeaders_ok h
  rw [List.length_flatten, List.map_eq_replicate_iff.2 hrec, List.sum_replicate, hlen]
  rfl

/-- What lies below the target length is kept by padding. -/
theorem take_padImage {front back : List Byte} {len : Nat} (h : front.length ≤ len) :
    (padImage (front ++ back) len).take front.length = front := by
  rw [padImage, List.take_append_of_le_length (by simp [h]), List.take_take, Nat.min_eq_left h, List.take_left]

/-- Settles O59: the records are 160 bytes, which padding to the target length keeps. -/
theorem artifactKeepsHeaders : Obligations.ArtifactKeepsHeaders := by
  intro offs gateware firmware len rs h hlen
  have hbytes := flatten_length_of_encodeBootHeaders h
  refine ⟨padImage (rs.flatten ++ mergeImages gateware firmware) len, by rw [multibootArtifact, h],
    padImage_length _ _, ?_⟩
  rw [← hbytes]
  exact take_padImage (by omega)

/-! ## A record in the flash -/

/-- Bytes laid down read back at their addresses, and no other address is reached. -/
theorem read_load {m : Memory} {a : Nat} {image : List Byte} (h : a + image.length ≤ Config.flashDeviceSize)
    (b : Nat) :
    Memory.read (Memory.load m a image) b =
      if a ≤ b ∧ b < a + image.length then image[b - a]? else Memory.read m b := by
  induction image generalizing m a with
  | nil => simp [Memory.load]
  | cons v vs ih =>
    simp only [List.length_cons] at h
    rw [Memory.load, if_pos (by omega), ih (by omega), List.length_cons]
    rcases Nat.lt_trichotomy b a with hlt | rfl | hgt
    · rw [if_neg (by omega), if_neg (by omega), Memory.read_write_other _ _ (by omega)]
    · rw [if_neg (by omega), if_pos (by omega), Memory.read_write_same, Nat.sub_self]
      rfl
    · by_cases hend : b < a + (vs.length + 1)
      · have hnext : b - a = b - (a + 1) + 1 := by omega
        rw [if_pos (by omega), if_pos (by omega), hnext, List.getElem?_cons_succ]
      · rw [if_neg (by omega), if_neg (by omega), Memory.read_write_other _ _ (by omega)]

/-- What the flash holds at an address of the image. -/
theorem flashRead_withFlashImage {s : State} {b : Nat} {image : List Byte} {a : FlashAddress} {v : Byte}
    (h : b + image.length ≤ Config.flashDeviceSize) (ha : b ≤ a.toNat) (hv : image[a.toNat - b]? = some v) :
    flashRead (s.withFlashImage b image).flash a = v := by
  obtain ⟨hlt, -⟩ := List.getElem?_eq_some_iff.1 hv
  rw [flashRead, withFlashImage_cells, read_load h, if_pos (by omega), hv]

section record
variable (s : State) (off : BootOffset)

theorem flashRead_bootRecord {a : FlashAddress} {v : Byte} (hv : (bootRecord off)[a.toNat]? = some v) :
    flashRead (s.withFlashImage 0 (bootRecord off)).flash a = v :=
  flashRead_withFlashImage (by rw [bootRecord_length]; decide) (Nat.zero_le _) hv

/-- The sync bytes (R191, R198 row 0). -/
theorem memRead_bootRecord_sync :
    memRead (s.withFlashImage 0 (bootRecord off)).flash (flashAddress 0#18) = (0x7E#8, 0xAA#8, 0x99#8, 0x7E#8) := by
  rw [memRead, flashRead_bootRecord s off (v := 0x7E#8) rfl, flashRead_bootRecord s off (v := 0xAA#8) rfl,
    flashRead_bootRecord s off (v := 0x99#8) rfl, flashRead_bootRecord s off (v := 0x7E#8) rfl]

/-- The end of the boot-address field's tag and the boot offset, high byte first (R191, R198 row 2). -/
theorem memRead_bootRecord_offset :
    memRead (s.withFlashImage 0 (bootRecord off)).flash (flashAddress 2#18) =
      (0x03#8, off.extractLsb' 16 8, off.extractLsb' 8 8, off.extractLsb' 0 8) := by
  rw [memRead, flashRead_bootRecord s off (v := 0x03#8) rfl,
    flashRead_bootRecord s off (v := off.extractLsb' 16 8) rfl,
    flashRead_bootRecord s off (v := off.extractLsb' 8 8) rfl,
    flashRead_bootRecord s off (v := off.extractLsb' 0 8) rfl]

end record

/-- Settles O60: the lane of address 11 is that of the fourth byte read at 8. -/
theorem headerWordsReadBack : Obligations.HeaderWordsReadBack := by
  intro s off
  have hlane : ∀ o, byteLane o 3 (pack o (0x03#8, off.extractLsb' 16 8, off.extractLsb' 8 8, off.extractLsb' 0 8)) =
      off.extractLsb' 0 8 := fun o => (byteLanes o _ _ _ _).2.2.2
  rw [memRead_bootRecord_sync, memRead_bootRecord_offset]
  exact ⟨hlane .little, hlane .big, rfl, rfl⟩

end Sys2Proof.Proofs
end
